-- ==== Sys2Proof/Word.lean ====
section
/-! DEFINITION. The word types of the block (00_scope.md R6): every value is an unsigned bit vector, bit 0 the least
significant bit. Nothing is signed and nothing is sign-extended. -/

namespace Sys2Proof

/-- The generator register `R`, `N = 24` bits (10_state.md R11). -/
abbrev GenReg := BitVec 24

/-- A plaintext or keystream nibble (30_encoding.md R52). -/
abbrev Nibble := BitVec 4

/-- A byte: plaintext, ciphertext, mask, codeword or result (30_encoding.md R45). -/
abbrev Byte := BitVec 8

/-- A discrepancy code (30_encoding.md R54). -/
abbrev DiscCode := BitVec 3

/-- The command code `op = cmd[67:64]` (30_encoding.md R46). -/
abbrev OpCode := BitVec 4

/-- The 64-bit operand `arg = cmd[63:0]` (30_encoding.md R46). -/
abbrev Arg := BitVec 64

/-- The command word `op ++ arg` (30_encoding.md R46). -/
abbrev CmdWord := BitVec 68

end Sys2Proof
end

