-- ==== Sys2Proof/Config.lean ====
section
/-! DEFINITION. The construction parameters (00_scope.md R4, R5). `NLTAPS` is the one parameter a model leaves open;
every other one is a constant. The block has no free value: no result of an operation is undefined. -/

namespace Sys2Proof

/-- `N`, the register width (00_scope.md R4; 92_eei_decisions.md D1). -/
abbrev regWidth : Nat := 24

/-- `INSPOS = N-1`, where the feedback bit enters (00_scope.md R4). -/
abbrev insPos : Nat := 23

/-- `LINTAPS`, the linear tap positions (00_scope.md R4). -/
def linTaps : List Nat := [0, 1, 8, 9, 15]

/-- `MAXFAIL`, the failures that trigger an escape, at the width of `FAILS` (00_scope.md R4). -/
def maxFail : BitVec 6 := 32#6

/-- `ESC`, the overflow sentinel codeword (00_scope.md R4). -/
def escCodeword : Byte := 0xFF#8

/-- `NLTAPS = (tapI, tapJ)`, the nonlinear tap pair. A value of this type meets 00_scope.md R5: each position is below
`N`, the two are distinct and neither is 0. So an ill-formed configuration cannot be built. -/
structure Config where
  tapI : Fin 24
  tapJ : Fin 24
  tapI_ne_zero : tapI ≠ 0
  tapJ_ne_zero : tapJ ≠ 0
  distinct : tapI ≠ tapJ
  deriving DecidableEq, Repr

/-- Why a configuration is refused when the model is built (00_scope.md R5; 60_exceptions.md R121; U9). -/
inductive ConfigError where
  /-- `n` is not 24. -/
  | width
  /-- A nonlinear tap position is not below `N`. -/
  | tapOutOfRange
  /-- A nonlinear tap position is 0. -/
  | tapAtZero
  /-- The two nonlinear tap positions are equal. -/
  | tapsEqual
  deriving DecidableEq, Repr

/-- The construction-time check of 00_scope.md R5: fail fast, by name, on a width or taps that do not fit. -/
def Config.build (n i j : Nat) : Except ConfigError Config :=
  if n ≠ regWidth then .error .width
  else if hi : i < 24 then
    if hj : j < 24 then
      if h0 : (⟨i, hi⟩ : Fin 24) = 0 then .error .tapAtZero
      else if h1 : (⟨j, hj⟩ : Fin 24) = 0 then .error .tapAtZero
      else if h2 : (⟨i, hi⟩ : Fin 24) = ⟨j, hj⟩ then .error .tapsEqual
      else .ok ⟨⟨i, hi⟩, ⟨j, hj⟩, h0, h1, h2⟩
    else .error .tapOutOfRange
  else .error .tapOutOfRange

/-- This hardware's `NLTAPS = (7, 18)` (00_scope.md R4 as corrected by 90_conflicts.md C1; 92_eei_decisions.md D2). -/
def Config.hardware : Config := ⟨7, 18, by decide, by decide, by decide⟩

/-- The document's printed pair `(17, 18)`, the recorded alternative (90_conflicts.md C1; 96_test_vectors_alt_taps.md). -/
def Config.printed : Config := ⟨17, 18, by decide, by decide, by decide⟩

end Sys2Proof
end

