-- ==== Sys2Proof/Syntax.lean ====
section
/-! DEFINITION. The instructions: one constructor per row of spec/opcode_table.json. The first sixteen are the command
words the host issues (30_encoding.md R47); the last nine are the codewords the decoder classifies after unmasking
(30_encoding.md R55). Bits of `arg` a command does not take are no operand of it (30_encoding.md R48). -/

namespace Sys2Proof

inductive Instr where
  /-- `NOP`, op 0x0 (40_generator.md R70). -/
  | nop
  /-- `INIT key`, op 0x1; all 64 bits of the key are passed (40_generator.md R65). -/
  | init (key : Arg)
  /-- `STEP`, op 0x2 (40_generator.md R67). -/
  | step
  /-- `NIBBLE`, op 0x3 (41_nibble_assembler.md R76). -/
  | nibble
  /-- `MASK`, op 0x4 (41_nibble_assembler.md R78). -/
  | mask
  /-- `ENCN p`, op 0x5 (43_encode.md R88). -/
  | encn (p : Nibble)
  /-- `ENCB b`, op 0x6 (43_encode.md R91). -/
  | encb (b : Byte)
  /-- `DECB c`, op 0x7 (44_decode.md R100). -/
  | decb (c : Byte)
  /-- `DRST`, op 0x8 (44_decode.md R108). -/
  | drst
  /-- `RESERVED_9`: reserved command code 0x9 (60_exceptions.md R115). -/
  | reserved9
  /-- `RESERVED_A`: reserved command code 0xA (60_exceptions.md R115). -/
  | reservedA
  /-- `RESERVED_B`: reserved command code 0xB (60_exceptions.md R115). -/
  | reservedB
  /-- `RESERVED_C`: reserved command code 0xC (60_exceptions.md R115). -/
  | reservedC
  /-- `RESERVED_D`: reserved command code 0xD (60_exceptions.md R115). -/
  | reservedD
  /-- `RESERVED_E`: reserved command code 0xE (60_exceptions.md R115). -/
  | reservedE
  /-- `RESERVED_F`: reserved command code 0xF (60_exceptions.md R115). -/
  | reservedF
  /-- `CW.ESC`: the overflow sentinel 0xFF (44_decode.md R102). -/
  | cwEsc
  /-- `CW.MATCH.0`: a match codeword with discrepancy 0 (30_encoding.md R55). -/
  | cwMatch0 (failCount : BitVec 5)
  /-- `CW.MATCH.1`: a match codeword with discrepancy 1 (30_encoding.md R55). -/
  | cwMatch1 (failCount : BitVec 5)
  /-- `CW.MATCH.2`: a match codeword with discrepancy 2 (30_encoding.md R55). -/
  | cwMatch2 (failCount : BitVec 5)
  /-- `CW.MATCH.3`: a match codeword with discrepancy 3 (30_encoding.md R55). -/
  | cwMatch3 (failCount : BitVec 5)
  /-- `CW.MATCH.4`: a match codeword with discrepancy 4 (30_encoding.md R55). -/
  | cwMatch4 (failCount : BitVec 5)
  /-- `CW.BAD.5`: an out-of-domain codeword with discrepancy 5 (30_encoding.md R55). -/
  | cwBad5 (failCount : BitVec 5)
  /-- `CW.BAD.6`: an out-of-domain codeword with discrepancy 6 (30_encoding.md R55). -/
  | cwBad6 (failCount : BitVec 5)
  /-- `CW.BAD.7`: an out-of-domain codeword with discrepancy 7 (30_encoding.md R55). -/
  | cwBad7 (failCount : BitVec 5)
  deriving DecidableEq, Repr

/-- The command code of a command row (30_encoding.md R47); a codeword has none. -/
def Instr.opCode : Instr → Option OpCode
  | .nop => some 0x0#4
  | .init _ => some 0x1#4
  | .step => some 0x2#4
  | .nibble => some 0x3#4
  | .mask => some 0x4#4
  | .encn _ => some 0x5#4
  | .encb _ => some 0x6#4
  | .decb _ => some 0x7#4
  | .drst => some 0x8#4
  | .reserved9 => some 0x9#4
  | .reservedA => some 0xA#4
  | .reservedB => some 0xB#4
  | .reservedC => some 0xC#4
  | .reservedD => some 0xD#4
  | .reservedE => some 0xE#4
  | .reservedF => some 0xF#4
  | .cwEsc => none
  | .cwMatch0 _ => none
  | .cwMatch1 _ => none
  | .cwMatch2 _ => none
  | .cwMatch3 _ => none
  | .cwMatch4 _ => none
  | .cwBad5 _ => none
  | .cwBad6 _ => none
  | .cwBad7 _ => none

/-- The instruction is one of the commands the host issues, legal or reserved; the others are codewords. -/
def Instr.isCommand (i : Instr) : Bool := i.opCode.isSome

end Sys2Proof
end

