-- ==== Sys2Proof/WellFormed.lean ====
section
/-! DEFINITION. Which terms of `Instr` stand for an encoding. Every operand of every row may take every value of its
width, with one exception: 0xFF is the sentinel `CW.ESC`, never a `CW.BAD.7` (30_encoding.md R55). The check of the
configuration (00_scope.md R5) is `Config.build`. -/

namespace Sys2Proof

/-- Why a term is ill-formed. -/
inductive FormError where
  /-- A `CW.BAD.7` with fail_count 31 would be the word 0xFF, which is `CW.ESC` (30_encoding.md R55). -/
  | sentinelAsBad
  deriving DecidableEq, Repr

/-- The check, naming what is wrong. -/
def checkForm : Instr → Except FormError Unit
  | .cwBad7 f => if f = 31#5 then .error .sentinelAsBad else .ok ()
  | .nop => .ok ()
  | .init _ => .ok ()
  | .step => .ok ()
  | .nibble => .ok ()
  | .mask => .ok ()
  | .encn _ => .ok ()
  | .encb _ => .ok ()
  | .decb _ => .ok ()
  | .drst => .ok ()
  | .reserved9 => .ok ()
  | .reservedA => .ok ()
  | .reservedB => .ok ()
  | .reservedC => .ok ()
  | .reservedD => .ok ()
  | .reservedE => .ok ()
  | .reservedF => .ok ()
  | .cwEsc => .ok ()
  | .cwMatch0 _ => .ok ()
  | .cwMatch1 _ => .ok ()
  | .cwMatch2 _ => .ok ()
  | .cwMatch3 _ => .ok ()
  | .cwMatch4 _ => .ok ()
  | .cwBad5 _ => .ok ()
  | .cwBad6 _ => .ok ()

/-- The instruction is well-formed: some word of the spec's encodings stands for it. -/
def WellFormed (i : Instr) : Bool :=
  match checkForm i with
  | .ok _ => true
  | .error _ => false

end Sys2Proof
end

