-- ==== Sys2Proof/Decode.lean ====
section
/-! DEFINITION. The decoder and, after it, the encoder, both written from 30_encoding.md. The block has two formats: the
68-bit command word (R46, R47) and the 8-bit codeword (R54, R55). A word of each format always decodes to one
instruction: the sixteen command codes and the 256 codewords are all taken. What is refused by name is a bit string
that is neither format. -/

namespace Sys2Proof

/-- A word of one of the block's two instruction formats. -/
inductive EncodedWord where
  /-- A command word on the command port (30_encoding.md R46). -/
  | command (w : CmdWord)
  /-- An unmasked codeword (30_encoding.md R54). -/
  | codeword (cw : Byte)
  deriving DecidableEq, Repr

/-- `op = cmd[67:64]` (30_encoding.md R46). -/
def opField (w : CmdWord) : OpCode := w.extractLsb' 64 4

/-- `arg = cmd[63:0]` (30_encoding.md R46). -/
def argField (w : CmdWord) : Arg := w.extractLsb' 0 64

/-- The nibble operand `arg[3:0]` (30_encoding.md R51). -/
def nibbleOperand (arg : Arg) : Nibble := arg.extractLsb' 0 4

/-- The byte operand `arg[7:0]` (30_encoding.md R51). -/
def byteOperand (arg : Arg) : Byte := arg.extractLsb' 0 8

/-- `fail_count = CW[7:3]` (30_encoding.md R54). -/
def failCountField (cw : Byte) : BitVec 5 := cw.extractLsb' 3 5

/-- `discrepancy = CW[2:0]` (30_encoding.md R54). -/
def discrepancyField (cw : Byte) : DiscCode := cw.extractLsb' 0 3

/-- The command of a command code and its operand (30_encoding.md R47, R48, R59). -/
def decodeOp (op : OpCode) (arg : Arg) : Instr :=
  match op.getLsbD 3, op.getLsbD 2, op.getLsbD 1, op.getLsbD 0 with
  | false, false, false, false => .nop
  | false, false, false, true => .init arg
  | false, false, true, false => .step
  | false, false, true, true => .nibble
  | false, true, false, false => .mask
  | false, true, false, true => .encn (nibbleOperand arg)
  | false, true, true, false => .encb (byteOperand arg)
  | false, true, true, true => .decb (byteOperand arg)
  | true, false, false, false => .drst
  | true, false, false, true => .reserved9
  | true, false, true, false => .reservedA
  | true, false, true, true => .reservedB
  | true, true, false, false => .reservedC
  | true, true, false, true => .reservedD
  | true, true, true, false => .reservedE
  | true, true, true, true => .reservedF

/-- A command word's instruction (30_encoding.md R46, R47). -/
def decodeCommand (w : CmdWord) : Instr := decodeOp (opField w) (argField w)

/-- The match or malformed class of a codeword that is not the sentinel, by its low three bits (30_encoding.md R55). -/
def decodeFields (f : BitVec 5) (d : DiscCode) : Instr :=
  match d.toFin with
  | 0 => .cwMatch0 f
  | 1 => .cwMatch1 f
  | 2 => .cwMatch2 f
  | 3 => .cwMatch3 f
  | 4 => .cwMatch4 f
  | 5 => .cwBad5 f
  | 6 => .cwBad6 f
  | 7 => .cwBad7 f

/-- A codeword's instruction: the sentinel test comes first (30_encoding.md R55; 44_decode.md R100). -/
def decodeCodeword (cw : Byte) : Instr :=
  if cw = escCodeword then .cwEsc else decodeFields (failCountField cw) (discrepancyField cw)

/-- The instruction of a word of either format. -/
def decodeWord : EncodedWord → Instr
  | .command w => decodeCommand w
  | .codeword cw => decodeCodeword cw

/-- Why a bit string is no word of the block. -/
inductive DecodeError where
  /-- The number of bits is that of no format (8 for a codeword, 68, or 72 in whole bytes, for a command word). -/
  | noSuchFormat
  /-- A bit above the format's highest bit is set: 68 and up of a command word, 8 and up of a codeword. -/
  | bitsAboveWord
  deriving DecidableEq, Repr

/-- The word that `w`, taken as `nbits` bits with bit 0 the least significant, stands for (log 12). -/
def readWord (nbits w : Nat) : Except DecodeError EncodedWord :=
  if nbits = 8 then
    if w < 2 ^ 8 then .ok (.codeword (BitVec.ofNat 8 w)) else .error .bitsAboveWord
  else if nbits = 68 ∨ nbits = 72 then
    if w < 2 ^ 68 then .ok (.command (BitVec.ofNat 68 w)) else .error .bitsAboveWord
  else .error .noSuchFormat

/-- Decoding is total on any bits: an instruction, or a rejection by name. -/
def decode (nbits w : Nat) : Except DecodeError Instr := (readWord nbits w).map decodeWord

/-- The host's question: the instruction the decoder reads from `w`, a word of `nbits` bits. -/
def decodeTableWord (nbits w : Nat) : Option Instr := (decode nbits w).toOption

/-- The command word `op ++ arg` (30_encoding.md R46, R60). -/
def commandWord (op : OpCode) (arg : Arg) : CmdWord := op ++ arg

/-- The word of an instruction, its ignored bits 0 (30_encoding.md R47, R54, R60). For `cwBad7` with fail_count 31, which
`WellFormed` refuses, it is the sentinel's word. -/
def encode : Instr → EncodedWord
  | .nop => .command (commandWord 0x0#4 0#64)
  | .init key => .command (commandWord 0x1#4 key)
  | .step => .command (commandWord 0x2#4 0#64)
  | .nibble => .command (commandWord 0x3#4 0#64)
  | .mask => .command (commandWord 0x4#4 0#64)
  | .encn p => .command (commandWord 0x5#4 (p.setWidth 64))
  | .encb b => .command (commandWord 0x6#4 (b.setWidth 64))
  | .decb c => .command (commandWord 0x7#4 (c.setWidth 64))
  | .drst => .command (commandWord 0x8#4 0#64)
  | .reserved9 => .command (commandWord 0x9#4 0#64)
  | .reservedA => .command (commandWord 0xA#4 0#64)
  | .reservedB => .command (commandWord 0xB#4 0#64)
  | .reservedC => .command (commandWord 0xC#4 0#64)
  | .reservedD => .command (commandWord 0xD#4 0#64)
  | .reservedE => .command (commandWord 0xE#4 0#64)
  | .reservedF => .command (commandWord 0xF#4 0#64)
  | .cwEsc => .codeword 0xFF#8
  | .cwMatch0 f => .codeword (f ++ 0#3)
  | .cwMatch1 f => .codeword (f ++ 1#3)
  | .cwMatch2 f => .codeword (f ++ 2#3)
  | .cwMatch3 f => .codeword (f ++ 3#3)
  | .cwMatch4 f => .codeword (f ++ 4#3)
  | .cwBad5 f => .codeword (f ++ 5#3)
  | .cwBad6 f => .codeword (f ++ 6#3)
  | .cwBad7 f => .codeword (f ++ 7#3)

end Sys2Proof
end

