-- ==== Sys2Proof/Machine/State.lean ====
section
/-! DEFINITION. The state of the block as plain data (10_state.md R10), the reasons a step can stop, and the machine
right after reset (10_state.md R25; 70_reset_and_hazards.md R130). The block has no memory (20_memory.md R30). -/

namespace Sys2Proof.Machine

/-- The eight values of the phase register `PH` (10_state.md R18). -/
inductive Phase where
  | idle
  | eMask
  | eSrch
  | eOvf
  | dMask
  | dEsc
  | dSkip
  | dKeep
  deriving DecidableEq, Repr

/-- The codes of the phases (10_state.md R18); they are visible nowhere outside the block. -/
def Phase.code : Phase → BitVec 3
  | .idle => 0#3
  | .eMask => 1#3
  | .eSrch => 2#3
  | .eOvf => 3#3
  | .dMask => 4#3
  | .dEsc => 5#3
  | .dSkip => 6#3
  | .dKeep => 7#3

/-- What the host does next (70_reset_and_hazards.md R143). `wait` and `awaitIdle` are the model's own: they say when
the action after them comes, and the host does nothing meanwhile (log 4). -/
inductive HostAction where
  /-- Do nothing while the block takes one transition. -/
  | wait
  /-- Do nothing until `STATUS.BUSY = 0`. -/
  | awaitIdle
  /-- Assert reset (70_reset_and_hazards.md R130). -/
  | reset
  /-- Issue a command word (30_encoding.md R46). -/
  | issue (cmd : CmdWord)
  /-- Read `STATUS` (10_state.md R22). -/
  | readStatus
  /-- Read `FINFO` (10_state.md R23). -/
  | readFinfo
  /-- Take the bytes of `OUT` (10_state.md R21). -/
  | takeOut
  deriving DecidableEq, Repr

/-- What the host is shown (70_reset_and_hazards.md R142). -/
inductive Observation where
  /-- The response `(res, out)` of a command (30_encoding.md R49). -/
  | response (res : Byte) (out : List Byte)
  /-- A value read from `STATUS`. -/
  | status (v : Byte)
  /-- A value read from `FINFO`. -/
  | finfo (v : Byte)
  /-- The bytes pushed to `OUT` so far. -/
  | taken (bytes : List Byte)
  deriving DecidableEq, Repr

/-- The whole state. The first sixteen fields are the registers of 10_state.md R10 and the output stream of R21; the
last four are the model's own (log 1, log 4, log 9). -/
structure State where
  /-- `R`, the generator register (R11). -/
  r : GenReg
  /-- `HL`, the decode framing flag: false = expect a high nibble (R14). -/
  hl : Bool
  /-- `NB`, the recovered high nibble waiting for its low nibble (R15). -/
  nb : Nibble
  /-- `SEEDED` (R16). -/
  seeded : Bool
  /-- `FAULT`, sticky (R17). -/
  faulted : Bool
  /-- `CAUSE` (R17; 60_exceptions.md R112). -/
  cause : BitVec 2
  /-- `FINFO` (R17, R23). -/
  finfo : Byte
  /-- `PH` (R18). -/
  ph : Phase
  /-- `MASK`, working register (R19). -/
  mask : Byte
  /-- `FAILS`, working register (R19). -/
  fails : BitVec 6
  /-- `PN`, working register (R19). -/
  pn : Nibble
  /-- `LN`, working register (R19). -/
  ln : Nibble
  /-- `LP`, working register (R19). -/
  lp : Bool
  /-- `CW`, working register (R19). -/
  cw : Byte
  /-- `OUT`, the output stream, oldest byte first; it only grows (R21). -/
  out : List Byte
  /-- The construction parameter `NLTAPS`; no state of the block, and no step changes it (log 1). -/
  config : Config
  /-- The host's actions still to come, oldest first (log 4). -/
  port : List HostAction
  /-- The bytes the command in progress has pushed so far (log 9). -/
  rspOut : List Byte
  /-- What the host has been shown so far, oldest first (log 9). -/
  seen : List Observation
  deriving DecidableEq, Repr

/-- The host-level stops. The block's own faults are NOT stops: they are next states with `FAULT = 1` (60_exceptions.md
R116, R117). These two are raised only in states no run reaches. -/
inductive Fault where
  /-- Raised by phase `E_SRCH` if `DISC` were read at a pattern that does not match. Such an entry does not exist
  (42_match_tables.md R81; 93_implementation_defined.md U2). Safe: `VALID` guards the read, so it is never raised. -/
  | discEntryAbsent
  /-- Raised by phase `D_KEEP` if `INV` were read at a code of 5, 6 or 7. Such an entry does not exist
  (42_match_tables.md R82; U2). Safe: phase `D_MASK` lets no such codeword through. -/
  | invEntryAbsent
  deriving DecidableEq, Repr

/-- Why a step has no meaning. -/
inductive Refusal where
  /-- An instruction without a meaning in this model. Safe. No arm of `exec` answers it. -/
  | notModelled (mnemonic : String)
  /-- Raised by every command issued while `PH` is not `IDLE`: outside the spec (70_reset_and_hazards.md R135; U8). Safe. -/
  | commandWhileBusy
  /-- Raised by a codeword taken as an instruction outside phase `D_MASK`: the spec classifies codewords in that phase
  only (44_decode.md R105). Safe; `step` never does it. -/
  | codewordOutsideDMask
  deriving DecidableEq, Repr

/-- The machine right after reset with a given tap pair: the spec's values for `HL`, `SEEDED`, `FAULT`, `CAUSE`,
`FINFO`, `PH` and `LP` (10_state.md R25), and 0 for the registers that hold no value then (log 2, DESIGN CHOICE). -/
def State.resetWith (config : Config) : State where
  r := 0#24
  hl := false
  nb := 0#4
  seeded := false
  faulted := false
  cause := 0#2
  finfo := 0x00#8
  ph := .idle
  mask := 0#8
  fails := 0#6
  pn := 0#4
  ln := 0#4
  lp := false
  cw := 0#8
  out := []
  config := config
  port := []
  rspOut := []
  seen := []

/-- The hardware right after reset: `NLTAPS = (7, 18)` (90_conflicts.md C1). -/
def State.reset : State := State.resetWith .hardware

end Sys2Proof.Machine
end

