-- ==== Sys2Proof/Machine/Flags.lean ====
section
/-! DEFINITION. The status register and the codes a fault writes (10_state.md R22; 60_exceptions.md R112). The block has
no condition codes set by arithmetic (10_state.md R24). -/

namespace Sys2Proof.Machine

/-- `BUSY`: 1 while `PH != IDLE` (10_state.md R22). -/
def busy (s : State) : Bool := s.ph != .idle

/-- `STATUS`: bits 7:6 zero, bit 5 `BUSY`, bits 4:3 `CAUSE`, bit 2 `FAULT`, bit 1 `HL`, bit 0 `SEEDED` (10_state.md R22). -/
def statusByte (s : State) : Byte :=
  0#2 ++ BitVec.ofBool (busy s) ++ s.cause ++ BitVec.ofBool s.faulted ++ BitVec.ofBool s.hl ++ BitVec.ofBool s.seeded

/-- The three faults of the block, each with its information (60_exceptions.md R112). -/
inductive BlockFault where
  /-- Cause 1: the unmasked codeword is not 0xFF and its discrepancy is 5, 6 or 7 (R113). -/
  | malformedCiphertext (cw : Byte)
  /-- Cause 2: a command that would step the generator, while `SEEDED = 0` (R114). -/
  | notSeeded (op : OpCode)
  /-- Cause 3: a reserved command code (R115). -/
  | illegalCommand (op : OpCode)
  deriving DecidableEq, Repr

/-- `code(F)` (60_exceptions.md R112). -/
def causeCode : BlockFault → BitVec 2
  | .malformedCiphertext _ => 1#2
  | .notSeeded _ => 2#2
  | .illegalCommand _ => 3#2

/-- The byte `FINFO` takes: the codeword, or `zext_8(op)` (60_exceptions.md R112). -/
def faultInfo : BlockFault → Byte
  | .malformedCiphertext cw => cw
  | .notSeeded op => op.setWidth 8
  | .illegalCommand op => op.setWidth 8

end Sys2Proof.Machine
end

