-- ==== Sys2Proof/Machine/Generator.lean ====
section
/-! DEFINITION. The pure functions behind every draw: `Step`, `Nibble`, `Mask` (40_generator.md R66;
41_nibble_assembler.md R75, R77). -/

namespace Sys2Proof.Machine

/-- `b1`: the parity of the linear taps (40_generator.md R66). -/
def linearParity (r : GenReg) : Bool := linTaps.foldl (fun b i => b ^^ r.getLsbD i) false

/-- `f = b1 ^ b2`: the feedback bit, with `b2` the AND of the two nonlinear taps (40_generator.md R66). -/
def feedback (c : Config) (r : GenReg) : Bool :=
  linearParity r ^^ (r.getLsbD c.tapI.val && r.getLsbD c.tapJ.val)

/-- The register after one step: shifted right by one, the feedback bit entering at bit 23 (40_generator.md R66). -/
def genNext (c : Config) (r : GenReg) : GenReg :=
  (r >>> 1) ||| ((BitVec.ofBool (feedback c r)).setWidth 24 <<< insPos)

/-- `Step(R) = (R', x)`, the output bit the NEW bit 0 (40_generator.md R66; 90_conflicts.md C2). -/
def genStep (c : Config) (r : GenReg) : GenReg × Bool := (genNext c r, (genNext c r).getLsbD 0)

/-- `Nibble(R) = (R4, k)` with `k = d ++ c ++ b ++ a`, the first bit lowest (41_nibble_assembler.md R75). -/
def genNibble (cf : Config) (r : GenReg) : GenReg × Nibble :=
  let (r1, a) := genStep cf r
  let (r2, b) := genStep cf r1
  let (r3, c) := genStep cf r2
  let (r4, d) := genStep cf r3
  (r4, BitVec.ofBool d ++ BitVec.ofBool c ++ BitVec.ofBool b ++ BitVec.ofBool a)

/-- `Mask(R) = (R8, m)` with `m = k1 ++ k2`, the first nibble high (41_nibble_assembler.md R77). -/
def genMask (c : Config) (r : GenReg) : GenReg × Byte :=
  let (r4, k1) := genNibble c r
  let (r8, k2) := genNibble c r4
  (r8, k1 ++ k2)

/-- `n` nibbles drawn and dropped: the register after them (44_decode.md R100). -/
def discardNibbles (c : Config) : Nat → GenReg → GenReg
  | 0, r => r
  | n + 1, r => discardNibbles c n (genNibble c r).1

end Sys2Proof.Machine
end

