-- ==== Sys2Proof/Machine/Operands.lean ====
section
/-! DEFINITION. The forms data takes on its way through the block (30_encoding.md R50 to R57). The command operands are
pulled out of `arg` by the decoder. -/

namespace Sys2Proof.Machine

/-- `trunc_24(key)`: the seed of a key (30_encoding.md R50). -/
def seedOfKey (key : Arg) : GenReg := key.setWidth 24

/-- `b[7:4]`, the nibble encoded first (30_encoding.md R51). -/
def highNibble (b : Byte) : Nibble := b.extractLsb' 4 4

/-- `b[3:0]`, the nibble encoded second (30_encoding.md R51). -/
def lowNibble (b : Byte) : Nibble := b.extractLsb' 0 4

/-- `NB ++ p`, a plaintext byte from its two nibbles (44_decode.md R103). -/
def joinNibbles (high low : Nibble) : Byte := high ++ low

/-- `CW = (fail_count << 3) | discrepancy` (30_encoding.md R54; 43_encode.md R89). -/
def makeCodeword (fails : BitVec 6) (d : DiscCode) : Byte := (fails.setWidth 8 <<< 3) ||| d.setWidth 8

/-- `CT = CW ^ MSK`, and `CW = CT ^ MSK` (30_encoding.md R57). -/
def applyMask (b m : Byte) : Byte := b ^^^ m

/-- The result of a command that returns an output bit: `zext_8(x)` (30_encoding.md R49). -/
def bitResult (x : Bool) : Byte := (BitVec.ofBool x).setWidth 8

/-- The result of a command that returns a nibble: `zext_8(k)`, bits 7:4 zero (30_encoding.md R49, R52). -/
def nibbleResult (k : Nibble) : Byte := k.setWidth 8

end Sys2Proof.Machine
end

