-- ==== Sys2Proof/Machine/Tables.lean ====
section
/-! DEFINITION. The Match Tables (42_match_tables.md). Entries the spec does not give do not exist: the tables are
partial, and no filler is invented (93_implementation_defined.md U2). -/

namespace Sys2Proof.Machine

/-- `TabRead(VALID, h)`: the pattern has at most one bit set (42_match_tables.md R80). -/
def tabValid (h : Nibble) : Bool :=
  h == 0x0#4 || h == 0x1#4 || h == 0x2#4 || h == 0x4#4 || h == 0x8#4

/-- `TabRead(DISC, h)`: the discrepancy code of a matching pattern (42_match_tables.md R81; 92_eei_decisions.md D8). -/
def tabDisc (h : Nibble) : Option DiscCode :=
  if h = 0x0#4 then some 0#3
  else if h = 0x1#4 then some 1#3
  else if h = 0x2#4 then some 2#3
  else if h = 0x4#4 then some 3#3
  else if h = 0x8#4 then some 4#3
  else none

/-- `TabRead(INV, d)`: the pattern of a discrepancy code 0 to 4 (42_match_tables.md R82). -/
def tabInv (d : DiscCode) : Option Nibble :=
  if d = 0#3 then some 0x0#4
  else if d = 1#3 then some 0x1#4
  else if d = 2#3 then some 0x2#4
  else if d = 3#3 then some 0x4#4
  else if d = 4#3 then some 0x8#4
  else none

end Sys2Proof.Machine
end

