-- ==== Sys2Proof/Machine/Ops.lean ====
section
/-! DEFINITION. The named operations over the state that every instruction and phase is written from: draws, pushes,
responses, taking a fault (60_exceptions.md R116), the acceptance gates of a command (R114, R117, R118), reset. -/

namespace Sys2Proof.Machine

open Host (Outcome)

/-- What a step answers. -/
abbrev Result := Outcome State Fault Refusal

/-- `R <- r`. -/
def setR (r : GenReg) (s : State) : State := { s with r := r }

/-- One generator step: `(R, x) <- Step(R)`. -/
def drawBit (s : State) : State × Bool := (setR (genStep s.config s.r).1 s, (genStep s.config s.r).2)

/-- One keystream nibble: `(R, k) <- Nibble(R)`. -/
def drawNibble (s : State) : State × Nibble := (setR (genNibble s.config s.r).1 s, (genNibble s.config s.r).2)

/-- One mask: `(R, m) <- Mask(R)`. The working register `MASK` is not written here. -/
def drawMask (s : State) : State × Byte := (setR (genMask s.config s.r).1 s, (genMask s.config s.r).2)

/-- `OUT.push(b)` by the command in progress (10_state.md R21). -/
def pushByte (b : Byte) (s : State) : State := { s with out := s.out ++ [b], rspOut := s.rspOut ++ [b] }

/-- The host is shown something (70_reset_and_hazards.md R142). -/
def observe (o : Observation) (s : State) : State := { s with seen := s.seen ++ [o] }

/-- The response `(res, out)` of a command (30_encoding.md R49). -/
def respond (res : Byte) (bytes : List Byte) (s : State) : State := observe (.response res bytes) s

/-- The state part of `raise F(info)`: `FAULT <- 1; CAUSE <- code(F); FINFO <- info; PH <- IDLE`, and nothing else
(60_exceptions.md R116). -/
def enterFault (f : BlockFault) (s : State) : State :=
  { s with faulted := true, cause := causeCode f, finfo := faultInfo f, ph := .idle }

/-- TAKING A FAULT, the one shared operation: the entry, and the faulting command's response `(0x00, [])`
(60_exceptions.md R116). There is no return from it but reset (R117). -/
def raiseFault (f : BlockFault) (s : State) : State := respond 0x00#8 [] (enterFault f s)

/-- `PH <- IDLE` at the end of a codec command, with its response: `res = 0x00`, `out` the bytes it pushed
(43_encode.md R88, R92; 44_decode.md R100, R104). -/
def finishCommand (s : State) : State :=
  respond 0x00#8 s.rspOut { s with ph := .idle, rspOut := [] }

/-- The gate of every command: it has a meaning only in `IDLE` (70_reset_and_hazards.md R135), and is ignored, with
response `(0x00, [])`, while `FAULT = 1` (60_exceptions.md R117, R118). -/
def onCommand (body : State → Result) (s : State) : Result :=
  if s.ph ≠ .idle then .refused .commandWhileBusy
  else if s.faulted then .next (respond 0x00#8 [] s)
  else body s

/-- The gate of a command that calls `Step`: `NotSeeded` while `SEEDED = 0`, before anything is drawn (60_exceptions.md
R114, R118). -/
def onSeeded (op : OpCode) (body : State → Result) (s : State) : Result :=
  if s.seeded then body s else .next (raiseFault (.notSeeded op) s)

/-- A reserved command code, past the gate of every command (60_exceptions.md R115). -/
def illegalCommand (op : OpCode) (s : State) : Result := .next (raiseFault (.illegalCommand op) s)

/-- The gate of a codeword: codewords are classified in phase `D_MASK` only (44_decode.md R105; log 6). -/
def onCodeword (body : State → Result) (s : State) : Result :=
  if s.ph = .dMask then body s else .refused .codewordOutsideDMask

/-- The reset input, effective in any phase: every register as right after reset, the command in progress gone without
a response, `OUT` and what the host has seen kept (70_reset_and_hazards.md R130). -/
def resetInput (s : State) : State :=
  { State.resetWith s.config with out := s.out, port := s.port, seen := s.seen }

end Sys2Proof.Machine
end

