-- ==== Sys2Proof/Machine/DecodePath.lean ====
section
/-! DEFINITION. The decode path: the commands `DECB` and `DRST`, the codeword classes that phase `D_MASK` tells apart,
and the phases after it (44_decode.md R100 to R108). -/

namespace Sys2Proof.Machine

/-- `DECB c`: `CW <- c; PH <- D_MASK` (44_decode.md R100, R104). -/
def execDecb (c : Byte) (s : State) : Result :=
  onCommand (onSeeded 0x7#4 fun s => .next { s with cw := c, ph := .dMask, rspOut := [] }) s

/-- `DRST`: `HL <- 0` and nothing else; accepted while `SEEDED = 0` (44_decode.md R108). -/
def execDrst (s : State) : Result := onCommand (fun s => .next (respond 0x00#8 [] { s with hl := false })) s

/-- The first half of phase `D_MASK`: draw the mask and unmask `CW`, which still holds the ciphertext byte. The state has
`R` and `MASK` written; the byte is the codeword to classify (44_decode.md R105). -/
def unmaskCodeword (s : State) : State × Byte :=
  ({ (drawMask s).1 with mask := (drawMask s).2 }, applyMask s.cw (drawMask s).2)

/-- A match codeword `cw = f ++ d`: `CW <- cw`, and `f` nibbles to discard before the one that is kept
(44_decode.md R105). -/
def startMatch (f : BitVec 5) (d : DiscCode) (s : State) : State :=
  if f = 0#5 then { s with cw := f ++ d, fails := 0#6, ph := .dKeep }
  else { s with cw := f ++ d, fails := f.setWidth 6, ph := .dSkip }

/-- A malformed codeword `cw = f ++ d`: `CW <- cw`, and the fault before any further draw (44_decode.md R101, R105). -/
def malformed (f : BitVec 5) (d : DiscCode) (s : State) : State :=
  raiseFault (.malformedCiphertext (f ++ d)) { s with cw := f ++ d }

/-- `CW.ESC`: `CW <- 0xFF`, and 32 nibbles to discard (44_decode.md R102, R105). -/
def execCwEsc (s : State) : Result :=
  onCodeword (fun s => .next { s with cw := escCodeword, fails := maxFail, ph := .dEsc }) s

/-- `CW.MATCH.0`: discrepancy 0 (44_decode.md R100, R105). -/
def execCwMatch0 (f : BitVec 5) (s : State) : Result := onCodeword (fun s => .next (startMatch f 0#3 s)) s

/-- `CW.MATCH.1`: discrepancy 1 (44_decode.md R100, R105). -/
def execCwMatch1 (f : BitVec 5) (s : State) : Result := onCodeword (fun s => .next (startMatch f 1#3 s)) s

/-- `CW.MATCH.2`: discrepancy 2 (44_decode.md R100, R105). -/
def execCwMatch2 (f : BitVec 5) (s : State) : Result := onCodeword (fun s => .next (startMatch f 2#3 s)) s

/-- `CW.MATCH.3`: discrepancy 3 (44_decode.md R100, R105). -/
def execCwMatch3 (f : BitVec 5) (s : State) : Result := onCodeword (fun s => .next (startMatch f 3#3 s)) s

/-- `CW.MATCH.4`: discrepancy 4 (44_decode.md R100, R105). -/
def execCwMatch4 (f : BitVec 5) (s : State) : Result := onCodeword (fun s => .next (startMatch f 4#3 s)) s

/-- `CW.BAD.5`: discrepancy 5 (44_decode.md R101; 60_exceptions.md R113). -/
def execCwBad5 (f : BitVec 5) (s : State) : Result := onCodeword (fun s => .next (malformed f 5#3 s)) s

/-- `CW.BAD.6`: discrepancy 6 (44_decode.md R101; 60_exceptions.md R113). -/
def execCwBad6 (f : BitVec 5) (s : State) : Result := onCodeword (fun s => .next (malformed f 6#3 s)) s

/-- `CW.BAD.7`: discrepancy 7 (44_decode.md R101; 60_exceptions.md R113). -/
def execCwBad7 (f : BitVec 5) (s : State) : Result := onCodeword (fun s => .next (malformed f 7#3 s)) s

/-- One discarded nibble: `(R, _) <- Nibble(R); FAILS <- FAILS - 1` (44_decode.md R106). -/
def discardOne (s : State) : State := { (drawNibble s).1 with fails := s.fails - 1#6 }

/-- Phase `D_ESC`: discard; the command is over on the visit that brings `FAILS` to 0 (44_decode.md R106). -/
def phaseDEsc (s : State) : Result :=
  .next (if s.fails = 1#6 then finishCommand (discardOne s) else discardOne s)

/-- Phase `D_SKIP`: discard; on to `D_KEEP` on the visit that brings `FAILS` to 0 (44_decode.md R106). -/
def phaseDSkip (s : State) : Result :=
  .next (if s.fails = 1#6 then { discardOne s with ph := .dKeep } else discardOne s)

/-- Framing of a recovered nibble: the high one waits in `NB`, the low one completes a byte (44_decode.md R103). -/
def frameNibble (p : Nibble) (s : State) : State :=
  if s.hl then { pushByte (joinNibbles s.nb p) s with hl := false } else { s with nb := p, hl := true }

/-- Phase `D_KEEP`: the kept nibble, its correction, its framing (44_decode.md R107). -/
def phaseDKeep (s : State) : Result :=
  match tabInv (discrepancyField s.cw) with
  | some e => .next (finishCommand (frameNibble ((drawNibble s).2 ^^^ e) (drawNibble s).1))
  | none => .fault .invEntryAbsent

end Sys2Proof.Machine
end

