-- ==== Sys2Proof/Machine/EncodePath.lean ====
section
/-! DEFINITION. The encode path: the commands `ENCN` and `ENCB`, which start it, and its three phases
(43_encode.md R88 to R95). -/

namespace Sys2Proof.Machine

/-- The start of an encode command: the nibble to match, the low nibble waiting for its turn if there is one, and phase
`E_MASK` (43_encode.md R92). -/
def startEncode (pn ln : Nibble) (lp : Bool) (s : State) : State :=
  { s with pn := pn, ln := ln, lp := lp, ph := .eMask, rspOut := [] }

/-- `ENCN p`: `PN <- p; LP <- 0; PH <- E_MASK`; `LN` is not written (43_encode.md R88, R92). -/
def execEncn (p : Nibble) (s : State) : Result :=
  onCommand (onSeeded 0x5#4 fun s => .next (startEncode p s.ln false s)) s

/-- `ENCB b`: `PN <- b[7:4]; LN <- b[3:0]; LP <- 1; PH <- E_MASK` (43_encode.md R91, R92). -/
def execEncb (b : Byte) (s : State) : Result :=
  onCommand (onSeeded 0x6#4 fun s => .next (startEncode (highNibble b) (lowNibble b) true s)) s

/-- `(R, MASK) <- Mask(R); FAILS <- 0; PH <- E_SRCH` (43_encode.md R93, R95). -/
def beginSearch (s : State) : State :=
  { (drawMask s).1 with mask := (drawMask s).2, fails := 0#6, ph := .eSrch }

/-- Phase `E_MASK`: draw the mask of a new plaintext nibble (43_encode.md R93). -/
def phaseEMask (s : State) : Result := .next (beginSearch s)

/-- After the match byte: on to the low nibble of an `ENCB`, or the command is over (43_encode.md R94). -/
def afterMatch (s : State) : State :=
  if s.lp then { s with pn := s.ln, lp := false, ph := .eMask } else finishCommand s

/-- A rejected nibble: the 32nd leads to the escape, any other is counted (43_encode.md R94). -/
def afterReject (s : State) : State :=
  if s.fails = 31#6 then { s with fails := maxFail, ph := .eOvf } else { s with fails := s.fails + 1#6 }

/-- Phase `E_SRCH`: draw one keystream nibble and test it (43_encode.md R94). -/
def phaseESrch (s : State) : Result :=
  if tabValid (s.pn ^^^ (drawNibble s).2) then
    match tabDisc (s.pn ^^^ (drawNibble s).2) with
    | some d => .next (afterMatch (pushByte (applyMask (makeCodeword s.fails d) s.mask) (drawNibble s).1))
    | none => .fault .discEntryAbsent
  else .next (afterReject (drawNibble s).1)

/-- Phase `E_OVF`: the escape byte under the old mask, then a fresh mask (43_encode.md R90, R95). -/
def phaseEOvf (s : State) : Result :=
  .next (beginSearch (pushByte (applyMask escCodeword s.mask) s))

end Sys2Proof.Machine
end

