-- ==== Sys2Proof/Machine/GeneratorCore.lean ====
section
/-! DEFINITION. The Generator Core's commands: `NOP`, `INIT`, `STEP` (40_generator.md R65, R67, R70). -/

namespace Sys2Proof.Machine

/-- `NOP` does nothing (40_generator.md R70). -/
def execNop (s : State) : Result := onCommand (fun s => .next (respond 0x00#8 [] s)) s

/-- `INIT key`: `R <- key[23:0]; SEEDED <- 1; HL <- 0` (40_generator.md R65). -/
def execInit (key : Arg) (s : State) : Result :=
  onCommand (fun s => .next (respond 0x00#8 [] { s with r := seedOfKey key, seeded := true, hl := false })) s

/-- `STEP`: one generator step, the output bit as result (40_generator.md R67). -/
def execStep (s : State) : Result :=
  onCommand (onSeeded 0x2#4 fun s => .next (respond (bitResult (drawBit s).2) [] (drawBit s).1)) s

end Sys2Proof.Machine
end

