-- ==== Sys2Proof/Machine/NibbleAssembler.lean ====
section
/-! DEFINITION. The Nibble Assembler's commands: `NIBBLE`, `MASK` (41_nibble_assembler.md R76, R78). -/

namespace Sys2Proof.Machine

/-- `NIBBLE`: one keystream nibble (41_nibble_assembler.md R76). -/
def execNibble (s : State) : Result :=
  onCommand (onSeeded 0x3#4 fun s => .next (respond (nibbleResult (drawNibble s).2) [] (drawNibble s).1)) s

/-- `MASK`: one mask; the working register `MASK` is not written (41_nibble_assembler.md R78). -/
def execMask (s : State) : Result :=
  onCommand (onSeeded 0x4#4 fun s => .next (respond (drawMask s).2 [] (drawMask s).1)) s

end Sys2Proof.Machine
end

