-- ==== Sys2Proof/Machine/Reserved.lean ====
section
/-! DEFINITION. The reserved command codes 0x9 to 0xF, which raise `IllegalCommand` (30_encoding.md R59;
60_exceptions.md R115, R118). -/

namespace Sys2Proof.Machine

/-- Reserved code 0x9 (60_exceptions.md R115). -/
def execReserved9 (s : State) : Result := onCommand (illegalCommand 0x9#4) s

/-- Reserved code 0xA (60_exceptions.md R115). -/
def execReservedA (s : State) : Result := onCommand (illegalCommand 0xA#4) s

/-- Reserved code 0xB (60_exceptions.md R115). -/
def execReservedB (s : State) : Result := onCommand (illegalCommand 0xB#4) s

/-- Reserved code 0xC (60_exceptions.md R115). -/
def execReservedC (s : State) : Result := onCommand (illegalCommand 0xC#4) s

/-- Reserved code 0xD (60_exceptions.md R115). -/
def execReservedD (s : State) : Result := onCommand (illegalCommand 0xD#4) s

/-- Reserved code 0xE (60_exceptions.md R115). -/
def execReservedE (s : State) : Result := onCommand (illegalCommand 0xE#4) s

/-- Reserved code 0xF (60_exceptions.md R115). -/
def execReservedF (s : State) : Result := onCommand (illegalCommand 0xF#4) s

end Sys2Proof.Machine
end

