-- ==== Sys2Proof/Machine/Dispatch.lean ====
section
/-! DEFINITION. The dispatch: one arm per instruction, each one direct call of its meaning. -/

namespace Sys2Proof.Machine

def exec (i : Instr) (s : State) : Host.Outcome State Fault Refusal :=
  match i with
  | .nop => Sys2Proof.Machine.execNop s
  | .init key => Sys2Proof.Machine.execInit key s
  | .step => Sys2Proof.Machine.execStep s
  | .nibble => Sys2Proof.Machine.execNibble s
  | .mask => Sys2Proof.Machine.execMask s
  | .encn p => Sys2Proof.Machine.execEncn p s
  | .encb b => Sys2Proof.Machine.execEncb b s
  | .decb c => Sys2Proof.Machine.execDecb c s
  | .drst => Sys2Proof.Machine.execDrst s
  | .reserved9 => Sys2Proof.Machine.execReserved9 s
  | .reservedA => Sys2Proof.Machine.execReservedA s
  | .reservedB => Sys2Proof.Machine.execReservedB s
  | .reservedC => Sys2Proof.Machine.execReservedC s
  | .reservedD => Sys2Proof.Machine.execReservedD s
  | .reservedE => Sys2Proof.Machine.execReservedE s
  | .reservedF => Sys2Proof.Machine.execReservedF s
  | .cwEsc => Sys2Proof.Machine.execCwEsc s
  | .cwMatch0 f => Sys2Proof.Machine.execCwMatch0 f s
  | .cwMatch1 f => Sys2Proof.Machine.execCwMatch1 f s
  | .cwMatch2 f => Sys2Proof.Machine.execCwMatch2 f s
  | .cwMatch3 f => Sys2Proof.Machine.execCwMatch3 f s
  | .cwMatch4 f => Sys2Proof.Machine.execCwMatch4 f s
  | .cwBad5 f => Sys2Proof.Machine.execCwBad5 f s
  | .cwBad6 f => Sys2Proof.Machine.execCwBad6 f s
  | .cwBad7 f => Sys2Proof.Machine.execCwBad7 f s

end Sys2Proof.Machine
end

