-- ==== Sys2Proof/Machine/Sequencer.lean ====
section
/-! DEFINITION. What a step is made of: the transition each phase enables (10_state.md R18), what the host's next action
does to the block (70_reset_and_hazards.md R143), and how an instruction is placed where the next step takes it from. -/

namespace Sys2Proof.Machine

/-- Phase `D_MASK`: unmask, then run the codeword found as the instruction it encodes (44_decode.md R105). -/
def phaseDMask (s : State) : Result :=
  exec (decodeCodeword (unmaskCodeword s).2) (unmaskCodeword s).1

/-- The one transition the phase enables; in `IDLE` the block waits and keeps all its state (43_encode.md R96;
44_decode.md R104; 60_exceptions.md R123). -/
def takeTransition (s : State) : Result :=
  match s.ph with
  | .idle => .next s
  | .eMask => phaseEMask s
  | .eSrch => phaseESrch s
  | .eOvf => phaseEOvf s
  | .dMask => phaseDMask s
  | .dEsc => phaseDEsc s
  | .dSkip => phaseDSkip s
  | .dKeep => phaseDKeep s

/-- The host's action `a`, `s` being the state with `a` already taken off the port (70_reset_and_hazards.md R143).
`awaitIdle` goes back on the port while the block is busy. -/
def hostAct (a : HostAction) (s : State) : Result :=
  match a with
  | .wait => takeTransition s
  | .awaitIdle => if s.ph = .idle then .next s else takeTransition { s with port := .awaitIdle :: s.port }
  | .reset => .next (resetInput s)
  | .issue cmd => exec (decodeCommand cmd) s
  | .readStatus => .next (observe (.status (statusByte s)) s)
  | .readFinfo => .next (observe (.finfo s.finfo) s)
  | .takeOut => .next (observe (.taken s.out) s)

/-- The command `cmd` placed on the command port of an idle block, as the host's very next action (30_encoding.md R46). -/
def placeCommand (cmd : CmdWord) (s : State) : State :=
  { s with ph := .idle, port := .issue cmd :: s.port }

/-- The codeword `cw` placed where phase `D_MASK` finds it: `CW` holds the ciphertext byte that the mask drawn next
unmasks to `cw`, the block is seeded, and the host waits one transition (44_decode.md R105; log 5). -/
def placeCodeword (cw : Byte) (s : State) : State :=
  { s with seeded := true, ph := .dMask, cw := applyMask cw (drawMask s).2, port := .wait :: s.port }

end Sys2Proof.Machine
end

