-- ==== Sys2Proof/Machine/Step.lean ====
section
/-! DEFINITION. One step of the machine: the host's next action, or, when the host has none, the transition the phase
enables. `State.withFetchWord` places an instruction where the next step takes it from. -/

namespace Sys2Proof.Machine

def step (s : State) : Host.Outcome State Fault Refusal :=
  match s.port with
  | [] => takeTransition s
  | a :: rest => hostAct a { s with port := rest }

/-- `s` with the instruction of the `nbits`-bit word `w` as the very next one: a codeword for 8 bits, a command word
otherwise. -/
def State.withFetchWord (s : State) (nbits w : Nat) : State :=
  if nbits = 8 then placeCodeword (BitVec.ofNat 8 w) s else placeCommand (BitVec.ofNat 68 w) s

end Sys2Proof.Machine
end

