-- ==== Sys2Proof/Machine/BigStep.lean ====
section
/-! DEFINITION. The operations as the big-step rules give them: one transition from the state before a command to the
state after it (00_scope.md R7; 43_encode.md R88, R91, R97; 44_decode.md R100, R109). The phase machine is the model's
`step`; these functions are what it is held against (R96, R104).

The encode search need not end (70_reset_and_hazards.md R137). `fuel` is no bound of the block: `none` says only that
the search has not ended within `fuel` search draws, and a search ends if SOME fuel ends it. -/

namespace Sys2Proof.Machine

/-- The search loop of 43_encode.md R88, with the mask `m` of the codeword attempt and the failures so far: the register
after it and the bytes it pushes. -/
def encodeSearch (c : Config) : Nat → GenReg → Nibble → Byte → BitVec 6 → Option (GenReg × List Byte)
  | 0, _, _, _, _ => none
  | fuel + 1, r, p, m, fails =>
    if tabValid (p ^^^ (genNibble c r).2) then
      (tabDisc (p ^^^ (genNibble c r).2)).map fun d =>
        ((genNibble c r).1, [applyMask (makeCodeword fails d) m])
    else if fails + 1#6 = maxFail then
      (encodeSearch c fuel (genMask c (genNibble c r).1).1 p (genMask c (genNibble c r).1).2 0#6).map fun e =>
        (e.1, applyMask escCodeword m :: e.2)
    else encodeSearch c fuel (genNibble c r).1 p m (fails + 1#6)

/-- `ENCN` from "Draw mask" to the last push (43_encode.md R88). -/
def encodeNibble (c : Config) (fuel : Nat) (r : GenReg) (p : Nibble) : Option (GenReg × List Byte) :=
  encodeSearch c fuel (genMask c r).1 p (genMask c r).2 0#6

/-- `ENCB`: the high nibble, then the low nibble (43_encode.md R91). -/
def encodeByte (c : Config) (fuel : Nat) (r : GenReg) (b : Byte) : Option (GenReg × List Byte) :=
  (encodeNibble c fuel r (highNibble b)).bind fun e =>
    (encodeNibble c fuel e.1 (lowNibble b)).map fun e' => (e'.1, e.2 ++ e'.2)

/-- `ENCRYPT b0 ... b(L-1)` (43_encode.md R97). -/
def encodeBytes (c : Config) (fuel : Nat) : GenReg → List Byte → Option (GenReg × List Byte)
  | r, [] => some (r, [])
  | r, b :: bs =>
    (encodeByte c fuel r b).bind fun e => (encodeBytes c fuel e.1 bs).map fun e' => (e'.1, e.2 ++ e'.2)

/-- What a decryption holds between ciphertext bytes: `R`, `HL`, `NB`, the bytes pushed, and the malformed codeword at
which it faulted, if it did. -/
structure Decoding where
  r : GenReg
  hl : Bool
  nb : Nibble
  out : List Byte
  malformedAt : Option Byte
  deriving DecidableEq, Repr

/-- Framing of a recovered nibble (44_decode.md R103). -/
def frameBig (p : Nibble) (d : Decoding) : Decoding :=
  if d.hl then { d with out := d.out ++ [joinNibbles d.nb p], hl := false } else { d with nb := p, hl := true }

/-- `DECB` past the mask draw, `d.r` being the register after it and `cw` the codeword. Where `INV` has no entry the
codeword is malformed and nothing more is drawn (44_decode.md R100 to R103; 42_match_tables.md R82). -/
def decodeCodewordBig (c : Config) (cw : Byte) (d : Decoding) : Decoding :=
  if cw = escCodeword then { d with r := discardNibbles c 32 d.r }
  else match tabInv (discrepancyField cw) with
    | none => { d with malformedAt := some cw }
    | some e =>
      let r := discardNibbles c (failCountField cw).toNat d.r
      frameBig ((genNibble c r).2 ^^^ e) { d with r := (genNibble c r).1 }

/-- `DECB ct` (44_decode.md R100); ignored once the decryption has faulted (60_exceptions.md R117). -/
def decodeByteBig (c : Config) (d : Decoding) (ct : Byte) : Decoding :=
  if d.malformedAt.isSome then d
  else decodeCodewordBig c (applyMask ct (genMask c d.r).2) { d with r := (genMask c d.r).1 }

/-- `DECRYPT c0 ... c(L-1)` from the register `r`: `DRST`, then the bytes in order (44_decode.md R109). -/
def decodeBytes (c : Config) (r : GenReg) (nb : Nibble) (cts : List Byte) : Decoding :=
  cts.foldl (decodeByteBig c) ⟨r, false, nb, [], none⟩

end Sys2Proof.Machine
end

