-- ==== Sys2Proof/Safety.lean ====
section
/-! DEFINITION. What the claims are stated in: when a command is accepted, the invariant every step keeps, how a run
ends (70_reset_and_hazards.md R142), which states a host cannot tell apart, and the host's action lists for a whole
encryption or decryption (30_encoding.md R61). -/

namespace Sys2Proof.Machine

open Host (Outcome)

/-- A command is accepted: `PH = IDLE` and `FAULT = 0` (43_encode.md R92; 44_decode.md R104). -/
abbrev Ready (s : State) : Prop := s.ph = .idle ∧ s.faulted = false

/-- A command that draws is accepted: ready and seeded (60_exceptions.md R114). -/
abbrev ReadyToDraw (s : State) : Prop := Ready s ∧ s.seeded = true

/-- The phase is one of the encode path. -/
abbrev InEncode (s : State) : Prop := s.ph = .eMask ∨ s.ph = .eSrch ∨ s.ph = .eOvf

/-- The fault registers agree: no fault leaves `CAUSE` and `FINFO` 0; a fault has a cause, and the block is idle
(60_exceptions.md R112, R116). -/
abbrev FaultRegistersAgree (s : State) : Prop :=
  (s.faulted = false → s.cause = 0#2 ∧ s.finfo = 0x00#8) ∧ (s.faulted = true → s.cause ≠ 0#2 ∧ s.ph = .idle)

/-- An unseeded block is idle and expects a high nibble (10_state.md R14, R16; 60_exceptions.md R114). -/
abbrev UnseededIsIdle (s : State) : Prop := s.seeded = false → s.ph = .idle ∧ s.hl = false

/-- `FAILS` is in the range its phase allows (43_encode.md R99; 44_decode.md R105, R106). -/
abbrev FailsInRange (s : State) : Prop :=
  (s.ph = .eSrch → s.fails.toNat ≤ 31) ∧ (s.ph = .eOvf → s.fails = 32#6) ∧
  (s.ph = .dEsc → 1 ≤ s.fails.toNat ∧ s.fails.toNat ≤ 32) ∧
  (s.ph = .dSkip → 1 ≤ s.fails.toNat ∧ s.fails.toNat ≤ 31) ∧ (s.ph = .dKeep → s.fails = 0#6)

/-- `CW` holds the codeword its phase was entered for: the sentinel, or one whose discrepancy has an `INV` entry
(44_decode.md R101, R105). -/
abbrev CodewordInClass (s : State) : Prop :=
  (s.ph = .dEsc → s.cw = escCodeword) ∧
  (s.ph = .dSkip ∨ s.ph = .dKeep → (discrepancyField s.cw).toNat ≤ 4)

/-- `LP` is 1 only on the encode path (93_implementation_defined.md U5), and only an encode command has pushed bytes
whose response is still to come. -/
abbrev OnlyEncodePends (s : State) : Prop := ¬ InEncode s → s.lp = false ∧ s.rspOut = []

/-- The invariant of the machine. -/
abbrev MachineInv (s : State) : Prop :=
  FaultRegistersAgree s ∧ UnseededIsIdle s ∧ FailsInRange s ∧ CodewordInClass s ∧ OnlyEncodePends s

/-- A run has ended well: `PH = IDLE` and `FAULT = 0` (70_reset_and_hazards.md R142). -/
abbrev EndedWell (s : State) : Prop := s.ph = .idle ∧ s.faulted = false

/-- A decryption has ended well: also `HL = 0`, no nibble dangling (70_reset_and_hazards.md R138, R142). -/
abbrev DecryptionEndedWell (s : State) : Prop := EndedWell s ∧ s.hl = false

/-- A run has ended badly: `FAULT = 1` (60_exceptions.md R117). -/
abbrev EndedBadly (s : State) : Prop := s.faulted = true

/-- `n` steps from `s` end in the state `t`. -/
abbrev Reaches (n : Nat) (s t : State) : Prop := Sys2Proof.core.run n s = .next t

/-- The two states differ at most in registers that hold no value or have no meaning there: `R` while unseeded and
idle, `NB` while `HL = 0`, the working registers outside the phases that read them (10_state.md R15, R19, R25;
70_reset_and_hazards.md R131; 93_implementation_defined.md U4, U5, U16). -/
structure SameToHost (s t : State) : Prop where
  config : s.config = t.config
  port : s.port = t.port
  out : s.out = t.out
  rspOut : s.rspOut = t.rspOut
  seen : s.seen = t.seen
  hl : s.hl = t.hl
  seeded : s.seeded = t.seeded
  faulted : s.faulted = t.faulted
  cause : s.cause = t.cause
  finfo : s.finfo = t.finfo
  ph : s.ph = t.ph
  r : s.seeded = true ∨ s.ph ≠ .idle → s.r = t.r
  nb : s.hl = true → s.nb = t.nb
  mask : s.ph = .eSrch ∨ s.ph = .eOvf → s.mask = t.mask
  fails : s.ph = .eSrch ∨ s.ph = .dEsc ∨ s.ph = .dSkip → s.fails = t.fails
  pn : InEncode s → s.pn = t.pn
  lp : InEncode s → s.lp = t.lp
  ln : InEncode s → s.lp = true → s.ln = t.ln
  cw : s.ph = .dMask ∨ s.ph = .dSkip ∨ s.ph = .dKeep → s.cw = t.cw

/-- Two answers a host cannot tell apart. -/
def SameAnswer : Outcome State Fault Refusal → Outcome State Fault Refusal → Prop
  | .next s, .next t => SameToHost s t
  | .fault a, .fault b => a = b
  | .refused a, .refused b => a = b
  | _, _ => False

/-- The word of a command instruction; the encoder never gives a codeword for one. -/
def issueOf (i : Instr) : List HostAction :=
  match encode i with
  | .command w => [.issue w]
  | .codeword _ => []

/-- Issue a command and wait until it is over. -/
def runCommand (i : Instr) : List HostAction := issueOf i ++ [.awaitIdle]

/-- `RUN.E key, b0 ... b(L-1)` (30_encoding.md R61). -/
def runEncrypt (key : Arg) (bs : List Byte) : List HostAction :=
  issueOf (.init key) ++ bs.flatMap fun b => runCommand (.encb b)

/-- `RUN.D key, c0 ... c(L-1)` (30_encoding.md R61). -/
def runDecrypt (key : Arg) (cts : List Byte) : List HostAction :=
  issueOf (.init key) ++ issueOf .drst ++ cts.flatMap fun c => runCommand (.decb c)

end Sys2Proof.Machine
end

