-- ==== Sys2Proof/Certificates/Slice0/Obligations.lean ====
section
/-! DEFINITION. The statements for the provers, one definition each. Next states are written out as record updates, so
that a statement is also its instruction's frame: every field not named is unchanged. There is no memory to frame
(20_memory.md R30); `OUT`, the responses and the host's port are fields like any other. -/

open Sys2Proof Sys2Proof.Machine

/-! ## Reset, fetch, decoding -/

/-- Reset writes SEEDED, HL, FAULT, CAUSE, FINFO, LP and PH (10_state.md R25), whatever the tap pair, and the
hardware's tap pair is (7, 18) (00_scope.md R4). The registers that hold no value after reset are not named here. -/
def Obligations.ResetValues : Prop :=
  (∀ c : Config,
    (State.resetWith c).seeded = false ∧ (State.resetWith c).hl = false ∧ (State.resetWith c).faulted = false ∧
    (State.resetWith c).cause = 0#2 ∧ (State.resetWith c).finfo = 0x00#8 ∧ (State.resetWith c).ph = .idle ∧
    (State.resetWith c).lp = false ∧ (State.resetWith c).out = [] ∧ (State.resetWith c).config = c) ∧
  State.reset = State.resetWith .hardware ∧
  Config.hardware.tapI.val = 7 ∧ Config.hardware.tapJ.val = 18

/-- The machine's invariant holds after reset, with every tap pair. -/
def Obligations.InvariantHoldsAtReset : Prop := MachineInv State.reset ∧ ∀ c : Config, MachineInv (State.resetWith c)

/-- A STEP RUNS THE DECODED INSTRUCTION, commands: the command word the host issues is decoded and run, and nothing else
happens but that it leaves the port (30_encoding.md R46). -/
def Obligations.StepRunsTheIssuedCommand : Prop :=
  ∀ (s : State) (w : CmdWord) (rest : List HostAction), s.port = .issue w :: rest →
    WellFormed (decodeCommand w) = true ∧ step s = exec (decodeCommand w) { s with port := rest }

/-- A STEP RUNS THE DECODED INSTRUCTION, codewords: in phase D_MASK the mask is drawn, the ciphertext byte in CW is
unmasked, and the codeword found is decoded and run (44_decode.md R105). The clause with `wait` on the port rests on the
model's choice of a list of host actions, `wait` being its own (log 4). -/
def Obligations.StepRunsTheUnmaskedCodeword : Prop :=
  ∀ s : State, s.ph = .dMask →
    WellFormed (decodeCodeword (s.cw ^^^ (genMask s.config s.r).2)) = true ∧
    (s.port = [] →
      step s = exec (decodeCodeword (s.cw ^^^ (genMask s.config s.r).2))
        { s with r := (genMask s.config s.r).1, mask := (genMask s.config s.r).2 }) ∧
    (∀ rest, s.port = .wait :: rest →
      step s = exec (decodeCodeword (s.cw ^^^ (genMask s.config s.r).2))
        { s with r := (genMask s.config s.r).1, mask := (genMask s.config s.r).2, port := rest })

/-- Words written out from the spec's encodings decode to the instructions they stand for (30_encoding.md R47, R55, R60;
the words are those of 95_test_vectors.md: section 2.4 for ENCN 0xF1, 2.6 for 0xF_0000000000000000, programs P1, P2, P8 and
P9 for the other commands, 2.3 for the codewords). That a command word may come as 72 bits is the model's choice (log 12). -/
def Obligations.SpecWordsDecode : Prop :=
  decode 68 0x60000000000000041 = .ok (.encb 0x41#8) ∧ decode 72 0x1DEADBEEF12345678 = .ok (.init 0xDEADBEEF12345678#64) ∧
  decode 72 0x20000000000000000 = .ok .step ∧ decode 72 0x500000000000000F1 = .ok (.encn 0x1#4) ∧
  decode 72 0x70000000000000054 = .ok (.decb 0x54#8) ∧ decode 72 0x80000000000000000 = .ok .drst ∧
  decode 72 0x90000000000000041 = .ok .reserved9 ∧ decode 72 0xF0000000000000000 = .ok .reservedF ∧
  decode 8 0xFF = .ok .cwEsc ∧ decode 8 0x11 = .ok (.cwMatch1 2#5) ∧ decode 8 0xFC = .ok (.cwMatch4 31#5) ∧
  decode 8 0x05 = .ok (.cwBad5 0#5) ∧ decode 8 0xFE = .ok (.cwBad6 31#5)

/-- The decoder reads a bit string exactly when it is a codeword of 8 bits or a command word of 68 bits, the latter also
in 72 bits whose top four are 0; it rejects any other by name. That command words may come in whole bytes is the
model's choice (log 12). -/
def Obligations.DecoderRejectsByName : Prop :=
  ∀ nbits w : Nat,
    (nbits = 8 → w < 2 ^ 8 → decode nbits w = .ok (decodeCodeword (BitVec.ofNat 8 w))) ∧
    (nbits = 68 ∨ nbits = 72 → w < 2 ^ 68 → decode nbits w = .ok (decodeCommand (BitVec.ofNat 68 w))) ∧
    (nbits = 8 → 2 ^ 8 ≤ w → decode nbits w = .error .bitsAboveWord) ∧
    (nbits = 68 ∨ nbits = 72 → 2 ^ 68 ≤ w → decode nbits w = .error .bitsAboveWord) ∧
    (nbits ≠ 8 → nbits ≠ 68 → nbits ≠ 72 → decode nbits w = .error .noSuchFormat)

/-- DECODE AND ENCODE AGREE, for all instructions: a well-formed instruction's word decodes to it, every operand at every
value. -/
def Obligations.DecodeUndoesEncode : Prop := ∀ i : Instr, WellFormed i = true → decodeWord (encode i) = i

/-- THE OTHER DIRECTION: encoding what a codeword decodes to gives the codeword back; encoding what a command word
decodes to gives back its op and the bits of arg its command takes, every other bit 0. -/
def Obligations.EncodeUndoesDecode : Prop :=
  (∀ cw : Byte, encode (decodeCodeword cw) = .codeword cw) ∧
  (∀ w : CmdWord, encode (decodeCommand w) =
    .command (commandWord (opField w)
      (if opField w = 0x1#4 then argField w
       else if opField w = 0x5#4 then (nibbleOperand (argField w)).setWidth 64
       else if opField w = 0x6#4 ∨ opField w = 0x7#4 then (byteOperand (argField w)).setWidth 64
       else 0#64)))

/-- The command codes (30_encoding.md R46, R47): `op = cmd[67:64]` selects the operation, and the operand of `INIT` is
`arg[63:0]`, of `ENCN` `arg[3:0]`, of `ENCB` and `DECB` `arg[7:0]`. -/
def Obligations.CommandCodes : Prop :=
  ∀ w : CmdWord,
    (w.extractLsb' 64 4 = 0x0#4 → decodeCommand w = .nop) ∧
    (w.extractLsb' 64 4 = 0x1#4 → decodeCommand w = .init (w.extractLsb' 0 64)) ∧
    (w.extractLsb' 64 4 = 0x2#4 → decodeCommand w = .step) ∧
    (w.extractLsb' 64 4 = 0x3#4 → decodeCommand w = .nibble) ∧
    (w.extractLsb' 64 4 = 0x4#4 → decodeCommand w = .mask) ∧
    (w.extractLsb' 64 4 = 0x5#4 → decodeCommand w = .encn (w.extractLsb' 0 4)) ∧
    (w.extractLsb' 64 4 = 0x6#4 → decodeCommand w = .encb (w.extractLsb' 0 8)) ∧
    (w.extractLsb' 64 4 = 0x7#4 → decodeCommand w = .decb (w.extractLsb' 0 8)) ∧
    (w.extractLsb' 64 4 = 0x8#4 → decodeCommand w = .drst) ∧
    (w.extractLsb' 64 4 = 0x9#4 → decodeCommand w = .reserved9) ∧
    (w.extractLsb' 64 4 = 0xA#4 → decodeCommand w = .reservedA) ∧
    (w.extractLsb' 64 4 = 0xB#4 → decodeCommand w = .reservedB) ∧
    (w.extractLsb' 64 4 = 0xC#4 → decodeCommand w = .reservedC) ∧
    (w.extractLsb' 64 4 = 0xD#4 → decodeCommand w = .reservedD) ∧
    (w.extractLsb' 64 4 = 0xE#4 → decodeCommand w = .reservedE) ∧
    (w.extractLsb' 64 4 = 0xF#4 → decodeCommand w = .reservedF)

/-- Bits of `arg` that an operation does not take are ignored (30_encoding.md R48): two command words with the same op
and the same bits taken are the same command. -/
def Obligations.UntakenBitsAreIgnored : Prop :=
  ∀ w v : CmdWord, w.extractLsb' 64 4 = v.extractLsb' 64 4 →
    (w.extractLsb' 64 4 = 0x1#4 → w.extractLsb' 0 64 = v.extractLsb' 0 64) →
    (w.extractLsb' 64 4 = 0x5#4 → w.extractLsb' 0 4 = v.extractLsb' 0 4) →
    (w.extractLsb' 64 4 = 0x6#4 ∨ w.extractLsb' 64 4 = 0x7#4 → w.extractLsb' 0 8 = v.extractLsb' 0 8) →
    decodeCommand w = decodeCommand v

/-- The three codeword classes (30_encoding.md R54, R55): 0xFF alone is the sentinel; any other codeword is told by its low
three bits, its high five being the fail_count; there are 160 match codewords and 95 malformed ones. -/
def Obligations.CodewordClasses : Prop :=
  (∀ cw : Byte, decodeCodeword cw = .cwEsc ↔ cw = 0xFF#8) ∧
  (∀ cw : Byte, cw ≠ 0xFF#8 →
    (cw.extractLsb' 0 3 = 0#3 → decodeCodeword cw = .cwMatch0 (cw.extractLsb' 3 5)) ∧
    (cw.extractLsb' 0 3 = 1#3 → decodeCodeword cw = .cwMatch1 (cw.extractLsb' 3 5)) ∧
    (cw.extractLsb' 0 3 = 2#3 → decodeCodeword cw = .cwMatch2 (cw.extractLsb' 3 5)) ∧
    (cw.extractLsb' 0 3 = 3#3 → decodeCodeword cw = .cwMatch3 (cw.extractLsb' 3 5)) ∧
    (cw.extractLsb' 0 3 = 4#3 → decodeCodeword cw = .cwMatch4 (cw.extractLsb' 3 5)) ∧
    (cw.extractLsb' 0 3 = 5#3 → decodeCodeword cw = .cwBad5 (cw.extractLsb' 3 5)) ∧
    (cw.extractLsb' 0 3 = 6#3 → decodeCodeword cw = .cwBad6 (cw.extractLsb' 3 5)) ∧
    (cw.extractLsb' 0 3 = 7#3 → decodeCodeword cw = .cwBad7 (cw.extractLsb' 3 5))) ∧
  ((List.range 256).filter fun n => decide (decodeCodeword (BitVec.ofNat 8 n) ≠ .cwEsc ∧ n % 8 ≤ 4)).length = 160 ∧
  ((List.range 256).filter fun n => decide (decodeCodeword (BitVec.ofNat 8 n) ≠ .cwEsc ∧ 5 ≤ n % 8)).length = 95

/-! ## The generator, the nibble, the mask, the tables -/

/-- The step function, bit by bit, for every tap pair, with its two corner states (40_generator.md R66). -/
def Obligations.GeneratorStepFormula : Prop :=
  ∀ (c : Config) (r : GenReg),
    (∀ i, i ≤ 22 → (genStep c r).1.getLsbD i = r.getLsbD (i + 1)) ∧
    (genStep c r).1.getLsbD 23 =
      ((r.getLsbD 0 ^^ r.getLsbD 1 ^^ r.getLsbD 8 ^^ r.getLsbD 9 ^^ r.getLsbD 15) ^^
        (r.getLsbD c.tapI.val && r.getLsbD c.tapJ.val)) ∧
    (genStep c r).2 = (genStep c r).1.getLsbD 0 ∧ (genStep c r).2 = r.getLsbD 1 ∧
    genStep c 0x000000#24 = (0x000000#24, false) ∧ genStep c 0xFFFFFF#24 = (0x7FFFFF#24, true)

/-- The first 23 output bits are the seed's own bits, and from the 24th on the outputs are the feedback bits computed
23 steps earlier (40_generator.md R68). The output of the t-th step is bit 0 of the register after t steps. -/
def Obligations.OutputBitsAreSeedThenFeedback : Prop :=
  ∀ (c : Config) (r : GenReg) (t : Nat),
    (1 ≤ t → t ≤ 23 → ((genNext c)^[t] r).getLsbD 0 = r.getLsbD t) ∧
    (24 ≤ t → ((genNext c)^[t] r).getLsbD 0 = feedback c ((genNext c)^[t - 24] r))

/-- Step is a permutation: the register is recovered from the one after it, so no two registers step to the same one,
and a non-zero register never steps to zero (40_generator.md R69 less its cycle counts; 43_encode.md R98). -/
def Obligations.GeneratorStepIsAPermutation : Prop :=
  ∀ (c : Config) (r : GenReg),
    (∀ i, i ≤ 22 → r.getLsbD (i + 1) = (genNext c r).getLsbD i) ∧
    r.getLsbD 0 =
      ((genNext c r).getLsbD 23 ^^ (genNext c r).getLsbD 0 ^^ (genNext c r).getLsbD 7 ^^ (genNext c r).getLsbD 8 ^^
        (genNext c r).getLsbD 14 ^^
        ((genNext c r).getLsbD (c.tapI.val - 1) && (genNext c r).getLsbD (c.tapJ.val - 1))) ∧
    (∀ r' : GenReg, genNext c r = genNext c r' → r = r') ∧
    (r ≠ 0#24 → genNext c r ≠ 0#24)

/-- Four steps make a nibble, the first bit lowest; two nibbles make a mask, the first nibble high (41_nibble_assembler.md
R75, R77; 30_encoding.md R52, R53). -/
def Obligations.NibbleAndMaskOrder : Prop :=
  ∀ (c : Config) (r : GenReg),
    (genNibble c r).1 = (genNext c)^[4] r ∧
    (∀ i, i < 4 → (genNibble c r).2.getLsbD i = ((genNext c)^[i + 1] r).getLsbD 0) ∧
    (genMask c r).1 = (genNext c)^[8] r ∧
    (genMask c r).2 = (genNibble c r).2 ++ (genNibble c (genNibble c r).1).2

/-- The closed forms of the draws (41_nibble_assembler.md R79): the nibble, the mask, the first six nibbles and the
register after one nibble, in the seed's own bits and the feedback bits. -/
def Obligations.NibbleAndMaskClosedForms : Prop :=
  ∀ (c : Config) (r : GenReg),
    (genNibble c r).2 = r.extractLsb' 1 4 ∧
    (genMask c r).2 = r.extractLsb' 1 4 ++ r.extractLsb' 5 4 ∧
    (genNibble c (discardNibbles c 1 r)).2 = r.extractLsb' 5 4 ∧
    (genNibble c (discardNibbles c 2 r)).2 = r.extractLsb' 9 4 ∧
    (genNibble c (discardNibbles c 3 r)).2 = r.extractLsb' 13 4 ∧
    (genNibble c (discardNibbles c 4 r)).2 = r.extractLsb' 17 4 ∧
    (genNibble c (discardNibbles c 5 r)).2 = BitVec.ofBool (feedback c r) ++ r.extractLsb' 21 3 ∧
    (genNibble c r).1 =
      BitVec.ofBool (feedback c ((genNext c)^[3] r)) ++ BitVec.ofBool (feedback c ((genNext c)^[2] r)) ++
        BitVec.ofBool (feedback c (genNext c r)) ++ BitVec.ofBool (feedback c r) ++ r.extractLsb' 4 20

/-- The three tables, entry by entry (42_match_tables.md R80, R81, R82). That a read of an entry the spec does not give
answers none is the model's choice of a partial table (log 8). -/
def Obligations.MatchTableContents : Prop :=
  (∀ h : Nibble, tabValid h = true ↔ h ∈ [0x0#4, 0x1#4, 0x2#4, 0x4#4, 0x8#4]) ∧
  (∀ h : Nibble, tabValid h = true ↔ ((List.range 4).filter fun i => h.getLsbD i).length ≤ 1) ∧
  tabDisc 0x0#4 = some 0#3 ∧ (∀ i : Nat, i < 4 → tabDisc (1#4 <<< i) = some (BitVec.ofNat 3 (i + 1))) ∧
  (∀ h : Nibble, tabValid h = false → tabDisc h = none) ∧
  tabInv 0#3 = some 0x0#4 ∧ (∀ i : Nat, i < 4 → tabInv (BitVec.ofNat 3 (i + 1)) = some (1#4 <<< i)) ∧
  tabInv 5#3 = none ∧ tabInv 6#3 = none ∧ tabInv 7#3 = none

/-- Table consistency and reconstruction (42_match_tables.md R83). -/
def Obligations.MatchTablesAreConsistent : Prop :=
  (∀ c : DiscCode, c.toNat ≤ 4 → ∃ h, tabInv c = some h ∧ tabDisc h = some c ∧ tabValid h = true) ∧
  (∀ h : Nibble, tabValid h = true → ∃ c, tabDisc h = some c ∧ tabInv c = some h) ∧
  (∀ p k : Nibble, tabValid (p ^^^ k) = true →
    ∃ d e, tabDisc (p ^^^ k) = some d ∧ tabInv d = some e ∧ k ^^^ e = p)

/-! ## The commands: where each completes, what it writes, where it traps -/

/-- NOP (op 0x0) does nothing but answer (0x00, []); with FAULT = 1 it is ignored, which is the same (40_generator.md
R70). -/
def Obligations.NopCommand : Prop :=
  (∀ w : CmdWord, w.extractLsb' 64 4 = 0x0#4 → decodeCommand w = .nop) ∧
  ∀ s : State, s.ph = .idle → exec .nop s = .next { s with seen := s.seen ++ [.response 0x00#8 []] }

/-- INIT (op 0x1) seeds R with key[23:0], sets SEEDED and clears HL; it needs no seed; with FAULT = 1 it is ignored
(40_generator.md R65). -/
def Obligations.InitCommand : Prop :=
  (∀ w : CmdWord, w.extractLsb' 64 4 = 0x1#4 → decodeCommand w = .init (w.extractLsb' 0 64)) ∧
  ∀ (s : State) (key : Arg), s.ph = .idle →
    (s.faulted = false →
      exec (.init key) s = .next { s with r := key.extractLsb' 0 24, seeded := true, hl := false,
                                          seen := s.seen ++ [.response 0x00#8 []] }) ∧
    (s.faulted = true → exec (.init key) s = .next { s with seen := s.seen ++ [.response 0x00#8 []] })

/-- DRST (op 0x8) clears HL and nothing else; it needs no seed; with FAULT = 1 it is ignored (44_decode.md R108). -/
def Obligations.DrstCommand : Prop :=
  (∀ w : CmdWord, w.extractLsb' 64 4 = 0x8#4 → decodeCommand w = .drst) ∧
  ∀ s : State, s.ph = .idle →
    (s.faulted = false → exec .drst s = .next { s with hl := false, seen := s.seen ++ [.response 0x00#8 []] }) ∧
    (s.faulted = true → exec .drst s = .next { s with seen := s.seen ++ [.response 0x00#8 []] })

/-- STEP (op 0x2): on a seeded block R moves down one bit, the feedback bit enters, the result is the old bit 1; with
FAULT = 1 it is ignored; unseeded it raises NotSeeded(0x02) (40_generator.md R66, R67). -/
def Obligations.StepCommandResult : Prop :=
  (∀ w : CmdWord, w.extractLsb' 64 4 = 0x2#4 → decodeCommand w = .step) ∧
  ∀ s : State, s.ph = .idle →
    (s.faulted = true → exec .step s = .next { s with seen := s.seen ++ [.response 0x00#8 []] }) ∧
    (s.faulted = false → s.seeded = false →
      exec .step s = .next { s with faulted := true, cause := 2#2, finfo := 0x02#8, ph := .idle,
                                    seen := s.seen ++ [.response 0x00#8 []] }) ∧
    (s.faulted = false → s.seeded = true →
      ∃ r' : GenReg,
        exec .step s = .next
          { s with r := r', seen := s.seen ++ [.response ((BitVec.ofBool (s.r.getLsbD 1)).setWidth 8) []] } ∧
        (∀ i, i ≤ 22 → r'.getLsbD i = s.r.getLsbD (i + 1)) ∧
        r'.getLsbD 23 =
          ((s.r.getLsbD 0 ^^ s.r.getLsbD 1 ^^ s.r.getLsbD 8 ^^ s.r.getLsbD 9 ^^ s.r.getLsbD 15) ^^
            (s.r.getLsbD s.config.tapI.val && s.r.getLsbD s.config.tapJ.val)))

/-- NIBBLE (op 0x3): on a seeded block four steps, the result is R[4:1] with the high bits 0; with FAULT = 1 it is
ignored; unseeded it raises NotSeeded(0x03) (41_nibble_assembler.md R76; the result as R79's closed form, which the
spec derives). -/
def Obligations.NibbleCommandResult : Prop :=
  (∀ w : CmdWord, w.extractLsb' 64 4 = 0x3#4 → decodeCommand w = .nibble) ∧
  ∀ s : State, s.ph = .idle →
    (s.faulted = true → exec .nibble s = .next { s with seen := s.seen ++ [.response 0x00#8 []] }) ∧
    (s.faulted = false → s.seeded = false →
      exec .nibble s = .next { s with faulted := true, cause := 2#2, finfo := 0x03#8, ph := .idle,
                                      seen := s.seen ++ [.response 0x00#8 []] }) ∧
    (s.faulted = false → s.seeded = true →
      exec .nibble s = .next
        { s with r := (genNext s.config)^[4] s.r,
                 seen := s.seen ++ [.response (0#4 ++ s.r.extractLsb' 1 4) []] })

/-- MASK (op 0x4): on a seeded block eight steps, the result is R[4:1] ++ R[8:5], the working register MASK is not
written; with FAULT = 1 it is ignored; unseeded it raises NotSeeded(0x04) (41_nibble_assembler.md R78; the result
as R79's closed form, which the spec derives). -/
def Obligations.MaskCommandResult : Prop :=
  (∀ w : CmdWord, w.extractLsb' 64 4 = 0x4#4 → decodeCommand w = .mask) ∧
  ∀ s : State, s.ph = .idle →
    (s.faulted = true → exec .mask s = .next { s with seen := s.seen ++ [.response 0x00#8 []] }) ∧
    (s.faulted = false → s.seeded = false →
      exec .mask s = .next { s with faulted := true, cause := 2#2, finfo := 0x04#8, ph := .idle,
                                    seen := s.seen ++ [.response 0x00#8 []] }) ∧
    (s.faulted = false → s.seeded = true →
      exec .mask s = .next
        { s with r := (genNext s.config)^[8] s.r,
                 seen := s.seen ++ [.response (s.r.extractLsb' 1 4 ++ s.r.extractLsb' 5 4) []] })

/-- The start of an encode command (43_encode.md R92); with FAULT = 1 or SEEDED = 0 the block stays in IDLE. `rspOut`, the
bytes of the response to come, starts empty. -/
def Obligations.EncodeCommandsStart : Prop :=
  (∀ s : State, ReadyToDraw s →
    (∀ p : Nibble, exec (.encn p) s = .next { s with pn := p, lp := false, ph := .eMask, rspOut := [] }) ∧
    (∀ b : Byte, exec (.encb b) s =
      .next { s with pn := b.extractLsb' 4 4, ln := b.extractLsb' 0 4, lp := true, ph := .eMask, rspOut := [] })) ∧
  (∀ (s : State) (i : Instr), s.ph = .idle → (∃ p, i = .encn p) ∨ (∃ b, i = .encb b) →
    (s.faulted = true → exec i s = .next { s with seen := s.seen ++ [.response 0x00#8 []] }) ∧
    (s.faulted = false → s.seeded = false → ∃ t, exec i s = .next t ∧ t.ph = .idle ∧ t.faulted = true ∧ t.cause = 2#2))

/-- The start of a decode command (44_decode.md R104). -/
def Obligations.DecodeCommandStarts : Prop :=
  ∀ s : State, ReadyToDraw s →
    ∀ c : Byte, exec (.decb c) s = .next { s with cw := c, ph := .dMask, rspOut := [] }

/-- The reserved codes raise IllegalCommand, seeded or not, and change nothing but the fault registers
(60_exceptions.md R112, R115, R116). -/
def Obligations.ReservedCommandsAreIllegal : Prop :=
  ∀ (s : State) (i : Instr) (op : OpCode), Ready s →
    (i, op) ∈ [(Instr.reserved9, 0x9#4), (.reservedA, 0xA#4), (.reservedB, 0xB#4), (.reservedC, 0xC#4),
      (.reservedD, 0xD#4), (.reservedE, 0xE#4), (.reservedF, 0xF#4)] →
    exec i s = .next { s with faulted := true, cause := 3#2, finfo := op.setWidth 8, ph := .idle,
                              seen := s.seen ++ [.response 0x00#8 []] }

/-- A command that would step the generator raises NotSeeded before any INIT; nothing is drawn and nothing changes but
the fault registers (60_exceptions.md R112, R114, R116). -/
def Obligations.UnseededDrawRaisesNotSeeded : Prop :=
  ∀ (s : State), Ready s → s.seeded = false → ∀ (p : Nibble) (b c : Byte) (i : Instr) (info : Byte),
    (i, info) ∈ [(Instr.step, 0x02#8), (.nibble, 0x03#8), (.mask, 0x04#8), (.encn p, 0x05#8), (.encb b, 0x06#8),
      (.decb c, 0x07#8)] →
    exec i s = .next { s with faulted := true, cause := 2#2, finfo := info, ph := .idle,
                              seen := s.seen ++ [.response 0x00#8 []] }

/-- While FAULT = 1 every command, legal or not, INIT included, is ignored: only the response (0x00, []) is given; and
no step but a reset changes anything else either, so CAUSE and FINFO keep the first fault's values
(60_exceptions.md R117; 10_state.md R17). The way out is reset, which unseeds the block. -/
def Obligations.FaultedBlockIgnoresEverything : Prop :=
  (∀ (s : State) (i : Instr), s.ph = .idle → s.faulted = true → i.isCommand = true →
    exec i s = .next { s with seen := s.seen ++ [.response 0x00#8 []] }) ∧
  (∀ s t : State, s.ph = .idle → s.faulted = true → s.port.head? ≠ some .reset → step s = .next t →
    t = { s with port := t.port, seen := t.seen }) ∧
  (∀ (s : State) (rest : List HostAction), s.port = .reset :: rest →
    ∃ t, step s = .next t ∧ t.faulted = false ∧ t.seeded = false)

/-- The order in which a command meets its fault: ignored while faulted, IllegalCommand, NotSeeded; past these it raises
nothing when it is issued, and the only fault of a command in progress is MalformedCiphertext, in phase D_MASK, after the
mask draw (60_exceptions.md R118). -/
def Obligations.FaultPriority : Prop :=
  (∀ (s : State) (i : Instr) (op : OpCode), s.ph = .idle → i.opCode = some op →
    (s.faulted = true → exec i s = .next { s with seen := s.seen ++ [.response 0x00#8 []] }) ∧
    (s.faulted = false → 9 ≤ op.toNat → ∃ t, exec i s = .next t ∧ t.faulted = true ∧ t.cause = 3#2) ∧
    (s.faulted = false → 2 ≤ op.toNat → op.toNat ≤ 7 → s.seeded = false →
      ∃ t, exec i s = .next t ∧ t.faulted = true ∧ t.cause = 2#2) ∧
    (s.faulted = false → op.toNat ≤ 8 → (s.seeded = true ∨ op.toNat ≤ 1 ∨ op.toNat = 8) →
      ∃ t, exec i s = .next t ∧ t.faulted = false ∧ t.cause = s.cause ∧ t.finfo = s.finfo)) ∧
  (∀ s t : State, s.ph ≠ .idle → step s = .next t → s.faulted = false → t.faulted = true →
    s.ph = .dMask ∧ t.cause = 1#2 ∧ t.r = (genMask s.config s.r).1)

/-- A command issued while PH is not IDLE has no meaning: it is refused, whatever it is (70_reset_and_hazards.md R135).
That PH is looked at before FAULT, which decides for busy states with FAULT = 1, is the model's choice (log 7); no run
reaches such a state. -/
def Obligations.BusyBlockRefusesCommands : Prop :=
  ∀ (s : State) (i : Instr), s.ph ≠ .idle → i.isCommand = true → exec i s = .refused .commandWhileBusy

/-! ## The codewords -/

/-- CW.ESC in phase D_MASK: 32 nibbles are to be discarded (44_decode.md R102, R105). -/
def Obligations.EscapeCodewordStarts : Prop :=
  ∀ s : State, s.ph = .dMask →
    exec .cwEsc s = .next { s with cw := 0xFF#8, fails := 32#6, ph := .dEsc }

/-- The match codewords in phase D_MASK: fail_count nibbles to discard, then one to keep; with fail_count 0 the one to
keep comes next (44_decode.md R100, R105). -/
def Obligations.MatchCodewordsStart : Prop :=
  ∀ (s : State) (f : BitVec 5) (i : Instr) (d : DiscCode), s.ph = .dMask →
    (i, d) ∈ [(Instr.cwMatch0 f, 0#3), (.cwMatch1 f, 1#3), (.cwMatch2 f, 2#3), (.cwMatch3 f, 3#3), (.cwMatch4 f, 4#3)] →
    exec i s = .next { s with cw := f ++ d, fails := f.setWidth 6, ph := if f = 0#5 then .dKeep else .dSkip }

/-- The malformed codewords in phase D_MASK, the ill-formed CW.BAD.7 with fail_count 31 apart, whose word is the sentinel
0xFF (30_encoding.md R55): the fault is taken with the codeword as its information, before any further
draw; R, HL, NB and OUT stay (44_decode.md R101, R105; 60_exceptions.md R113, R116). -/
def Obligations.MalformedCodewordsFault : Prop :=
  ∀ (s : State) (f : BitVec 5) (i : Instr) (d : DiscCode), s.ph = .dMask →
    (i, d) ∈ [(Instr.cwBad5 f, 5#3), (.cwBad6 f, 6#3), (.cwBad7 f, 7#3)] → WellFormed i = true →
    exec i s = .next { s with cw := f ++ d, faulted := true, cause := 1#2, finfo := f ++ d, ph := .idle,
                              seen := s.seen ++ [.response 0x00#8 []] }

/-- The stops the model chose, in states no run reaches: a codeword taken as an instruction outside phase D_MASK is refused,
since the spec classifies codewords in that phase only (log 6), and D_KEEP stops where INV has no entry (log 8). DISC has
an entry wherever VALID is 1, so E_SRCH never stops. -/
def Obligations.StopsTheModelChose : Prop :=
  (∀ (s : State) (i : Instr), s.ph ≠ .dMask → i.isCommand = false → exec i s = .refused .codewordOutsideDMask) ∧
  (∀ s : State, s.port = [] → s.ph = .dKeep → 5 ≤ (s.cw.extractLsb' 0 3).toNat → step s = .fault .invEntryAbsent) ∧
  (∀ s : State, s.port = [] → s.ph = .eSrch → ∃ t, step s = .next t)

/-! ## The transitions of the phases -/

/-- E_MASK (43_encode.md R93) and E_OVF (43_encode.md R95): the mask is drawn and the search begins anew; E_OVF first
pushes the escape byte under the old mask. -/
def Obligations.MaskDrawingPhases : Prop :=
  ∀ s : State, s.port = [] →
    (s.ph = .eMask →
      step s = .next { s with r := (genMask s.config s.r).1, mask := (genMask s.config s.r).2, fails := 0#6,
                              ph := .eSrch }) ∧
    (s.ph = .eOvf →
      step s = .next { s with out := s.out ++ [0xFF#8 ^^^ s.mask], rspOut := s.rspOut ++ [0xFF#8 ^^^ s.mask],
                              r := (genMask s.config s.r).1, mask := (genMask s.config s.r).2, fails := 0#6,
                              ph := .eSrch })

/-- E_SRCH (43_encode.md R94): one nibble is drawn; a match pushes the masked codeword and goes on to the low nibble or
ends the command with its response; the 32nd rejection leads to E_OVF; any other is counted. -/
def Obligations.SearchPhase : Prop :=
  ∀ s : State, s.port = [] → s.ph = .eSrch →
    (∀ d : DiscCode, tabDisc (s.pn ^^^ (genNibble s.config s.r).2) = some d →
      let b : Byte := (s.fails.setWidth 8 <<< 3 ||| d.setWidth 8) ^^^ s.mask
      (s.lp = true →
        step s = .next { s with r := (genNibble s.config s.r).1, out := s.out ++ [b], rspOut := s.rspOut ++ [b],
                                pn := s.ln, lp := false, ph := .eMask }) ∧
      (s.lp = false →
        step s = .next { s with r := (genNibble s.config s.r).1, out := s.out ++ [b], rspOut := [], ph := .idle,
                                seen := s.seen ++ [.response 0x00#8 (s.rspOut ++ [b])] })) ∧
    (tabValid (s.pn ^^^ (genNibble s.config s.r).2) = false →
      (s.fails = 31#6 →
        step s = .next { s with r := (genNibble s.config s.r).1, fails := 32#6, ph := .eOvf }) ∧
      (s.fails ≠ 31#6 →
        step s = .next { s with r := (genNibble s.config s.r).1, fails := s.fails + 1#6 })) ∧
    (tabValid (s.pn ^^^ (genNibble s.config s.r).2) = true →
      ∃ d, tabDisc (s.pn ^^^ (genNibble s.config s.r).2) = some d)

/-- D_MASK (44_decode.md R105), with the classification written out: the mask is drawn, the byte unmasked, and the
sentinel, the malformed, the match without and the match with discarded nibbles are told apart in that order. -/
def Obligations.UnmaskingPhase : Prop :=
  ∀ s : State, s.port = [] → s.ph = .dMask →
    let m := (genMask s.config s.r).2
    let cw := s.cw ^^^ m
    (cw = 0xFF#8 →
      step s = .next { s with r := (genMask s.config s.r).1, mask := m, cw := cw, fails := 32#6, ph := .dEsc }) ∧
    (cw ≠ 0xFF#8 → 5 ≤ (cw.extractLsb' 0 3).toNat →
      step s = .next { s with r := (genMask s.config s.r).1, mask := m, cw := cw, faulted := true, cause := 1#2,
                              finfo := cw, ph := .idle, seen := s.seen ++ [.response 0x00#8 []] }) ∧
    ((cw.extractLsb' 0 3).toNat ≤ 4 → cw.extractLsb' 3 5 = 0#5 →
      step s = .next { s with r := (genMask s.config s.r).1, mask := m, cw := cw, fails := 0#6, ph := .dKeep }) ∧
    ((cw.extractLsb' 0 3).toNat ≤ 4 → cw.extractLsb' 3 5 ≠ 0#5 →
      step s = .next { s with r := (genMask s.config s.r).1, mask := m, cw := cw,
                              fails := (cw.extractLsb' 3 5).setWidth 6, ph := .dSkip })

/-- D_ESC and D_SKIP (44_decode.md R106): one nibble is dropped and FAILS counts down; on the visit that brings it to 0
D_ESC ends the command and D_SKIP goes to D_KEEP. Both are entered only with FAILS at least 1. -/
def Obligations.DiscardingPhases : Prop :=
  (∀ s : State, s.port = [] →
    (s.ph = .dEsc → s.fails ≠ 1#6 →
      step s = .next { s with r := (genNibble s.config s.r).1, fails := s.fails - 1#6 }) ∧
    (s.ph = .dEsc → s.fails = 1#6 →
      step s = .next { s with r := (genNibble s.config s.r).1, fails := 0#6, ph := .idle, rspOut := [],
                              seen := s.seen ++ [.response 0x00#8 s.rspOut] }) ∧
    (s.ph = .dSkip → s.fails ≠ 1#6 →
      step s = .next { s with r := (genNibble s.config s.r).1, fails := s.fails - 1#6 }) ∧
    (s.ph = .dSkip → s.fails = 1#6 →
      step s = .next { s with r := (genNibble s.config s.r).1, fails := 0#6, ph := .dKeep })) ∧
  (∀ s t : State, step s = .next t → t.ph ≠ s.ph → t.ph = .dEsc ∨ t.ph = .dSkip → 1 ≤ t.fails.toNat)

/-- D_KEEP (44_decode.md R107): the kept nibble, corrected by INV, waits in NB or completes a byte, and the command is
over. -/
def Obligations.KeepingPhase : Prop :=
  ∀ s : State, s.port = [] → s.ph = .dKeep →
    ∀ e : Nibble, tabInv (s.cw.extractLsb' 0 3) = some e →
      let p := (genNibble s.config s.r).2 ^^^ e
      (s.hl = false →
        step s = .next { s with r := (genNibble s.config s.r).1, nb := p, hl := true, ph := .idle, rspOut := [],
                                seen := s.seen ++ [.response 0x00#8 s.rspOut] }) ∧
      (s.hl = true →
        step s = .next { s with r := (genNibble s.config s.r).1, hl := false, out := s.out ++ [s.nb ++ p], ph := .idle,
                                rspOut := [], seen := s.seen ++ [.response 0x00#8 (s.rspOut ++ [s.nb ++ p])] })

/-! ## The host's actions -/

/-- The reset input, in any phase, faulted or hung: the registers reset writes (70_reset_and_hazards.md R130), OUT kept.
The registers it leaves without a value are not named (log 2); that it leaves the port and the host's record is the model's
choice (log 17). -/
def Obligations.ResetInputInAnyPhase : Prop :=
  ∀ (s : State) (rest : List HostAction), s.port = .reset :: rest →
    ∃ t, step s = .next t ∧ t.seeded = false ∧ t.hl = false ∧ t.faulted = false ∧ t.cause = 0#2 ∧ t.finfo = 0x00#8 ∧
      t.ph = .idle ∧ t.lp = false ∧ t.out = s.out ∧ t.seen = s.seen ∧ t.port = rest ∧ t.config = s.config ∧
      statusByte t = 0x00#8

/-- STATUS (10_state.md R22), bit by bit: SEEDED, HL, FAULT, CAUSE, BUSY, two zeros; CAUSE is 0 while FAULT = 0; a host that
reads it, in any phase, gets these bits and changes nothing; after reset it is 0x00. That the block makes no transition in
the step of the read is the model's choice (log 10). -/
def Obligations.StatusLayout : Prop :=
  (∀ s : State,
    (statusByte s).getLsbD 0 = s.seeded ∧ (statusByte s).getLsbD 1 = s.hl ∧ (statusByte s).getLsbD 2 = s.faulted ∧
    (statusByte s).extractLsb' 3 2 = s.cause ∧ (statusByte s).getLsbD 5 = (s.ph != .idle) ∧
    (statusByte s).extractLsb' 6 2 = 0#2 ∧
    (MachineInv s → s.faulted = false → (statusByte s).extractLsb' 3 2 = 0#2) ∧
    (∀ rest, s.port = .readStatus :: rest →
      step s = .next { s with port := rest, seen := s.seen ++ [.status (statusByte s)] })) ∧
  statusByte State.reset = 0x00#8

/-- Reading STATUS or FINFO and taking the bytes of OUT have no side effect on the block, in any phase
(10_state.md R22, R23; 70_reset_and_hazards.md R143). That the block makes no transition in the same step is the model's
choice (log 10). -/
def Obligations.HostReadsHaveNoSideEffect : Prop :=
  ∀ (s : State) (rest : List HostAction),
    (s.port = .readStatus :: rest →
      step s = .next { s with port := rest, seen := s.seen ++ [.status (statusByte s)] }) ∧
    (s.port = .readFinfo :: rest →
      step s = .next { s with port := rest, seen := s.seen ++ [.finfo s.finfo] }) ∧
    (s.port = .takeOut :: rest →
      step s = .next { s with port := rest, seen := s.seen ++ [.taken s.out] })

/-- In IDLE the block waits for a command and keeps all its state (60_exceptions.md R123); the host's waits are the model's
own (log 4). -/
def Obligations.IdleBlockKeepsItsState : Prop :=
  ∀ s : State, s.ph = .idle →
    (s.port = [] → step s = .next s) ∧
    (∀ rest, s.port = .wait :: rest ∨ s.port = .awaitIdle :: rest → step s = .next { s with port := rest })

/-! ## What every step keeps -/

/-- AN INVARIANT THAT EVERY STEP KEEPS: the fault registers agree, an unseeded block is idle, FAILS is in its phase's
range, CW is of its phase's class, LP and a response to come are the encode path's only. -/
def Obligations.InvariantKept : Prop := ∀ s t : State, MachineInv s → step s = .next t → MachineInv t

/-- No step is stuck: under the invariant a step answers a next state, but for a command issued to a busy block. In
particular no table entry that does not exist is ever read (43_encode.md R96; 44_decode.md R104; 93 U2). -/
def Obligations.StepNeverStops : Prop :=
  ∀ s : State, MachineInv s →
    (∃ t, step s = .next t) ∨
    (s.ph ≠ .idle ∧ (∃ w rest, s.port = .issue w :: rest) ∧ step s = .refused .commandWhileBusy)

/-- OUT only grows, and so does what the host has seen (10_state.md R21): a step pushes at most one byte. -/
def Obligations.OutputOnlyGrows : Prop :=
  ∀ s t : State, step s = .next t →
    (t.out = s.out ∨ ∃ b, t.out = s.out ++ [b]) ∧ (t.seen = s.seen ∨ ∃ o, t.seen = s.seen ++ [o])

/-- Who writes R: INIT, reset, and otherwise only generator steps, 1, 4 or 8 at a time (10_state.md R13); no step changes
the tap pair (70_reset_and_hazards.md R143). -/
def Obligations.RegisterWriters : Prop :=
  ∀ s t : State, step s = .next t →
    t.config = s.config ∧
    (t.r = s.r ∨ (∃ n, (n = 1 ∨ n = 4 ∨ n = 8) ∧ t.r = (genNext s.config)^[n] s.r) ∨
      (∃ w rest key, s.port = .issue w :: rest ∧ decodeCommand w = .init key ∧ t.r = key.extractLsb' 0 24) ∨
      (∃ rest, s.port = .reset :: rest))

/-- Who writes the flags: nothing but reset clears SEEDED or FAULT, only INIT sets SEEDED, and HL changes only by reset,
INIT, DRST or a recovered nibble (10_state.md R14, R16, R17). -/
def Obligations.FlagWriters : Prop :=
  ∀ s t : State, step s = .next t →
    (s.seeded = true → t.seeded = false → ∃ rest, s.port = .reset :: rest) ∧
    (s.seeded = false → t.seeded = true → ∃ w rest key, s.port = .issue w :: rest ∧ decodeCommand w = .init key) ∧
    (s.faulted = true → t.faulted = false → ∃ rest, s.port = .reset :: rest) ∧
    (t.hl ≠ s.hl →
      (∃ rest, s.port = .reset :: rest) ∨
      (∃ w rest, s.port = .issue w :: rest ∧
        (decodeCommand w = .drst ∨ ∃ key, decodeCommand w = .init key)) ∨
      s.ph = .dKeep)

/-- The encoder produces only match and escape codewords (30_encoding.md R56): the byte a search pushes unmasks to a
codeword with the failures counted and a discrepancy of at most 4, never 0xFF; the byte E_OVF pushes unmasks to 0xFF. -/
def Obligations.EncoderProducesOnlyMatchAndEscape : Prop :=
  ∀ (s t : State) (b : Byte), MachineInv s → step s = .next t → t.out = s.out ++ [b] →
    (s.ph = .eSrch → b ^^^ s.mask ≠ 0xFF#8 ∧ ((b ^^^ s.mask).extractLsb' 0 3).toNat ≤ 4 ∧
      ((b ^^^ s.mask).extractLsb' 3 5).toNat = s.fails.toNat) ∧
    (s.ph = .eOvf → b ^^^ s.mask = 0xFF#8)

/-- What no register holds a value in cannot be seen: two states that differ only in R while unseeded and idle, in NB
while HL = 0, and in working registers their phase does not read, answer every step alike, and stay so. Whatever value
the model names at reset (log 2) therefore makes no difference (70_reset_and_hazards.md R131; 10_state.md R15, R19). -/
def Obligations.ValuelessRegistersAreUnobservable : Prop :=
  ∀ s t : State, SameToHost s t → SameAnswer (step s) (step t)

/-! ## The phase machine against the big-step rules, and the laws of the cipher -/

/-- An encode command whose big-step search ends (43_encode.md R88, R91) runs through the phases to IDLE with the same
register, the same bytes in the same order and the response that carries them, and touches neither HL nor NB nor the
fault registers (43_encode.md R96). -/
def Obligations.EncodeCommandsMeetBigStep : Prop :=
  ∀ (s : State) (fuel : Nat) (r' : GenReg) (bytes : List Byte) (i : Instr), ReadyToDraw s → s.port = [] →
    ((∃ p, i = .encn p ∧ encodeNibble s.config fuel s.r p = some (r', bytes)) ∨
      (∃ b, i = .encb b ∧ encodeByte s.config fuel s.r b = some (r', bytes))) →
    ∃ s1 n t, exec i s = .next s1 ∧ Reaches n s1 t ∧ (∀ k, k < n → ∃ u, Reaches k s1 u ∧ u.ph ≠ .idle) ∧
      t.ph = .idle ∧ t.r = r' ∧ t.out = s.out ++ bytes ∧ t.seen = s.seen ++ [.response 0x00#8 bytes] ∧
      t.hl = s.hl ∧ t.nb = s.nb ∧ t.seeded = s.seeded ∧ t.faulted = s.faulted ∧ t.cause = s.cause ∧
      t.finfo = s.finfo ∧ t.config = s.config ∧ t.port = [] ∧ t.rspOut = []

/-- An encode command whose big-step search never ends never returns to IDLE, never stops, and pushes without end
(43_encode.md R96; 70_reset_and_hazards.md R137). -/
def Obligations.HungEncodeNeverReturns : Prop :=
  ∀ (s : State) (i : Instr), ReadyToDraw s → s.port = [] →
    ((∃ p, i = .encn p ∧ ∀ fuel, encodeNibble s.config fuel s.r p = none) ∨
      (∃ b, i = .encb b ∧ ∀ fuel, encodeByte s.config fuel s.r b = none)) →
    ∃ s1, exec i s = .next s1 ∧
      (∀ n, ∃ t, Reaches n s1 t ∧ t.ph ≠ .idle) ∧
      (∀ k, ∃ n t, Reaches n s1 t ∧ s.out.length + k ≤ t.out.length)

/-- DECB runs through the phases to IDLE in at most 33 transitions, with the effect of the big-step rule: the same R, HL
and NB, the same byte pushed if any, and the fault if the codeword is malformed (44_decode.md R100, R104). -/
def Obligations.DecodeCommandMeetsBigStep : Prop :=
  ∀ (s : State) (c : Byte), ReadyToDraw s → s.port = [] →
    let d := decodeByteBig s.config ⟨s.r, s.hl, s.nb, [], none⟩ c
    ∃ s1 n t, exec (.decb c) s = .next s1 ∧ n ≤ 33 ∧ Reaches n s1 t ∧
      (∀ k, k < n → ∃ u, Reaches k s1 u ∧ u.ph ≠ .idle) ∧
      t.ph = .idle ∧ t.r = d.r ∧ t.hl = d.hl ∧ t.nb = d.nb ∧ t.out = s.out ++ d.out ∧
      t.seen = s.seen ++ [.response 0x00#8 d.out] ∧ t.seeded = s.seeded ∧ t.config = s.config ∧ t.port = [] ∧
      (d.malformedAt = none → t.faulted = false ∧ t.cause = s.cause ∧ t.finfo = s.finfo) ∧
      (∀ cw, d.malformedAt = some cw → t.faulted = true ∧ t.cause = 1#2 ∧ t.finfo = cw ∧ d.out = [])

/-- The consumption pattern (20_memory.md R44): an encoded nibble with e escapes and final count f takes
4 * (34*e + f + 3) generator steps and pushes e + 1 bytes, the first e of which unmask to the sentinel and the last to a
match codeword with fail_count f, each under the mask drawn 34 nibbles after the one before; the decoder takes 4 * (f + 3) steps for a match byte, 136 for
an escape and 8 for a malformed byte. -/
def Obligations.ConsumptionPattern : Prop :=
  (∀ (c : Config) (fuel : Nat) (r r' : GenReg) (p : Nibble) (bytes : List Byte),
    encodeNibble c fuel r p = some (r', bytes) →
    ∃ (e : Nat) (f : BitVec 5) (d : DiscCode) (last : Byte),
      bytes.length = e + 1 ∧
      (∀ (k : Nat) (b : Byte), k < e → bytes[k]? = some b →
        b ^^^ (genMask c ((genNext c)^[136 * k] r)).2 = 0xFF#8) ∧
      bytes.getLast? = some last ∧ last ^^^ (genMask c ((genNext c)^[136 * e] r)).2 = f ++ d ∧ d.toNat ≤ 4 ∧
      r' = (genNext c)^[4 * (34 * e + f.toNat + 3)] r) ∧
  (∀ (c : Config) (d : Decoding) (ct : Byte), d.malformedAt = none →
    let cw := ct ^^^ (genMask c d.r).2
    (cw = 0xFF#8 → (decodeByteBig c d ct).r = (genNext c)^[136] d.r) ∧
    (cw ≠ 0xFF#8 → 5 ≤ (cw.extractLsb' 0 3).toNat → (decodeByteBig c d ct).r = (genNext c)^[8] d.r) ∧
    ((cw.extractLsb' 0 3).toNat ≤ 4 →
      (decodeByteBig c d ct).r = (genNext c)^[4 * ((cw.extractLsb' 3 5).toNat + 3)] d.r))

/-- THE ROUND TRIP (44_decode.md R110), over the big-step rules: whenever an encryption ends, decrypting its bytes from
the same register, under any tap pair, takes no fault, pushes exactly the plaintext, and ends with the encryption's
register and HL = 0. -/
def Obligations.DecryptionUndoesEncryption : Prop :=
  ∀ (c : Config) (fuel : Nat) (r r' : GenReg) (nb : Nibble) (plain cipher : List Byte),
    encodeBytes c fuel r plain = some (r', cipher) →
    ∃ nb', decodeBytes c r nb cipher = ⟨r', false, nb', plain, none⟩

/-- A whole encryption run on the machine (30_encoding.md R61; 43_encode.md R97): from reset, RUN.E ends well with the
bytes and the register of the big-step rule, whenever that ends. The host's waits in RUN.E are the model's own (log 4). -/
def Obligations.EncryptionRunMeetsBigStep : Prop :=
  ∀ (c : Config) (key : Arg) (fuel : Nat) (r' : GenReg) (plain cipher : List Byte),
    encodeBytes c fuel (key.extractLsb' 0 24) plain = some (r', cipher) →
    ∃ n t, Reaches n { State.resetWith c with port := runEncrypt key plain } t ∧ t.port = [] ∧ EndedWell t ∧
      t.out = cipher ∧ t.r = r'

/-- A whole decryption run on the machine (30_encoding.md R61; 44_decode.md R109): from reset, RUN.D of any bytes at all
ends in IDLE, with the bytes pushed by the big-step rule; it has faulted exactly if that met a malformed codeword. The
big-step rule may start from any NB, which no register holds after reset (log 2); the host's waits in RUN.D are the
model's own (log 4). -/
def Obligations.DecryptionRunMeetsBigStep : Prop :=
  ∀ (c : Config) (key : Arg) (nb : Nibble) (cipher : List Byte),
    let d := decodeBytes c (key.extractLsb' 0 24) nb cipher
    ∃ n t, Reaches n { State.resetWith c with port := runDecrypt key cipher } t ∧ t.port = [] ∧ t.ph = .idle ∧
      t.out = d.out ∧ t.r = d.r ∧ t.hl = d.hl ∧ t.faulted = d.malformedAt.isSome

/-- THE ROUND TRIP ON THE MACHINE (44_decode.md R110): whenever an encryption run from reset is over, the decryption run
with the same key over the bytes it pushed ends well, with no nibble dangling, pushes exactly the plaintext, and ends
with the encryption's register. The host's waits are the model's own (log 4). -/
def Obligations.RunsRoundTrip : Prop :=
  ∀ (c : Config) (key : Arg) (plain : List Byte) (n : Nat) (t : State),
    Reaches n { State.resetWith c with port := runEncrypt key plain } t → t.port = [] →
    EndedWell t ∧
    ∃ m u, Reaches m { State.resetWith c with port := runDecrypt key t.out } u ∧ u.port = [] ∧
      DecryptionEndedWell u ∧ u.out = plain ∧ u.r = t.r

/-- The zero seed (70_reset_and_hazards.md R137): under any tap pair, from R = 0 an encode of a nibble with two or more
bits set pushes 0xFF after every 33 transitions and never returns to IDLE; a nibble with at most one bit set matches at
once and pushes its discrepancy code. -/
def Obligations.ZeroSeedHangs : Prop :=
  ∀ (s : State) (p : Nibble), ReadyToDraw s → s.port = [] → s.r = 0#24 →
    ∃ s1, exec (.encn p) s = .next s1 ∧
      (tabValid p = false →
        (∀ n, ∃ t, Reaches (1 + 33 * n) s1 t ∧ t.ph = .eSrch ∧ t.r = 0#24 ∧
          t.out = s.out ++ List.replicate n 0xFF#8) ∧
        (∀ k, ∃ t, Reaches k s1 t ∧ t.ph ≠ .idle)) ∧
      (∀ d, tabDisc p = some d →
        ∃ t, Reaches 2 s1 t ∧ t.ph = .idle ∧ t.r = 0#24 ∧ t.out = s.out ++ [d.setWidth 8])
end

