-- ==== Sys2Proof/Laws/Generator.lean ====
section
/-! SUPPORT. What the pure functions and the tables do, one lemma each. -/

namespace Sys2Proof.Machine

/-- The parity of the linear taps, written out. -/
theorem linearParity_eq (r : GenReg) :
    linearParity r =
      (r.getLsbD 0 ^^ r.getLsbD 1 ^^ r.getLsbD 8 ^^ r.getLsbD 9 ^^ r.getLsbD 15) := by
  simp [linearParity, linTaps]

/-- The step, bit by bit: every bit moves down one place and the feedback bit enters at the top. -/
theorem genNext_getLsbD (c : Config) (r : GenReg) (i : Nat) (hi : i < 24) :
    (genNext c r).getLsbD i = if i = 23 then feedback c r else r.getLsbD (i + 1) := by
  have h24 : r.getLsbD 24 = false := BitVec.getLsbD_of_ge r 24 (Nat.le_refl _)
  by_cases h : i = 23
  · subst h; simp [genNext, insPos]
  · have : i < 23 := by omega
    simp [genNext, insPos, h, hi, this, Nat.add_comm]

/-- Four steps in a row. -/
theorem genNibble_fst (c : Config) (r : GenReg) :
    (genNibble c r).1 = genNext c (genNext c (genNext c (genNext c r))) := rfl

/-- The mask is two nibbles, the first one high. -/
theorem genMask_eq (c : Config) (r : GenReg) :
    genMask c r =
      ((genNibble c (genNibble c r).1).1, (genNibble c r).2 ++ (genNibble c (genNibble c r).1).2) := rfl

/-- The nibble, bit by bit: the first bit generated is the lowest. -/
theorem genNibble_snd (c : Config) (r : GenReg) :
    (genNibble c r).2 =
      BitVec.ofBool ((genNext c (genNext c (genNext c (genNext c r)))).getLsbD 0)
        ++ BitVec.ofBool ((genNext c (genNext c (genNext c r))).getLsbD 0)
        ++ BitVec.ofBool ((genNext c (genNext c r)).getLsbD 0)
        ++ BitVec.ofBool ((genNext c r).getLsbD 0) := rfl

/-- `DISC` has an entry exactly where `VALID` is 1. -/
theorem tabDisc_isSome (h : Nibble) : (tabDisc h).isSome = tabValid h := by
  revert h; decide

/-- A code that `DISC` gives is at most 4. -/
theorem tabDisc_le (h : Nibble) (d : DiscCode) (hd : tabDisc h = some d) : d.toNat ≤ 4 := by
  revert h d; decide

/-- `INV` has an entry exactly at the codes 0 to 4. -/
theorem tabInv_isSome (d : DiscCode) : (tabInv d).isSome = decide (d.toNat ≤ 4) := by
  revert d; decide

/-- `INV` undoes `DISC`. -/
theorem tabInv_of_tabDisc (h : Nibble) (d : DiscCode) (hd : tabDisc h = some d) : tabInv d = some h := by
  revert h d; decide

end Sys2Proof.Machine
end

