-- ==== Sys2Proof/Laws/State.lean ====
section
/-! SUPPORT. One lemma per field per named update of the state, so that no later proof unfolds a record update. -/

namespace Sys2Proof.Machine

variable (s : State)

@[simp] theorem setR_r (r : GenReg) : (setR r s).r = r := rfl
@[simp] theorem setR_hl (r : GenReg) : (setR r s).hl = s.hl := rfl
@[simp] theorem setR_nb (r : GenReg) : (setR r s).nb = s.nb := rfl
@[simp] theorem setR_seeded (r : GenReg) : (setR r s).seeded = s.seeded := rfl
@[simp] theorem setR_faulted (r : GenReg) : (setR r s).faulted = s.faulted := rfl
@[simp] theorem setR_cause (r : GenReg) : (setR r s).cause = s.cause := rfl
@[simp] theorem setR_finfo (r : GenReg) : (setR r s).finfo = s.finfo := rfl
@[simp] theorem setR_ph (r : GenReg) : (setR r s).ph = s.ph := rfl
@[simp] theorem setR_mask (r : GenReg) : (setR r s).mask = s.mask := rfl
@[simp] theorem setR_fails (r : GenReg) : (setR r s).fails = s.fails := rfl
@[simp] theorem setR_pn (r : GenReg) : (setR r s).pn = s.pn := rfl
@[simp] theorem setR_ln (r : GenReg) : (setR r s).ln = s.ln := rfl
@[simp] theorem setR_lp (r : GenReg) : (setR r s).lp = s.lp := rfl
@[simp] theorem setR_cw (r : GenReg) : (setR r s).cw = s.cw := rfl
@[simp] theorem setR_out (r : GenReg) : (setR r s).out = s.out := rfl
@[simp] theorem setR_config (r : GenReg) : (setR r s).config = s.config := rfl
@[simp] theorem setR_port (r : GenReg) : (setR r s).port = s.port := rfl
@[simp] theorem setR_rspOut (r : GenReg) : (setR r s).rspOut = s.rspOut := rfl
@[simp] theorem setR_seen (r : GenReg) : (setR r s).seen = s.seen := rfl

@[simp] theorem pushByte_r (b : Byte) : (pushByte b s).r = s.r := rfl
@[simp] theorem pushByte_hl (b : Byte) : (pushByte b s).hl = s.hl := rfl
@[simp] theorem pushByte_nb (b : Byte) : (pushByte b s).nb = s.nb := rfl
@[simp] theorem pushByte_seeded (b : Byte) : (pushByte b s).seeded = s.seeded := rfl
@[simp] theorem pushByte_faulted (b : Byte) : (pushByte b s).faulted = s.faulted := rfl
@[simp] theorem pushByte_cause (b : Byte) : (pushByte b s).cause = s.cause := rfl
@[simp] theorem pushByte_finfo (b : Byte) : (pushByte b s).finfo = s.finfo := rfl
@[simp] theorem pushByte_ph (b : Byte) : (pushByte b s).ph = s.ph := rfl
@[simp] theorem pushByte_mask (b : Byte) : (pushByte b s).mask = s.mask := rfl
@[simp] theorem pushByte_fails (b : Byte) : (pushByte b s).fails = s.fails := rfl
@[simp] theorem pushByte_pn (b : Byte) : (pushByte b s).pn = s.pn := rfl
@[simp] theorem pushByte_ln (b : Byte) : (pushByte b s).ln = s.ln := rfl
@[simp] theorem pushByte_lp (b : Byte) : (pushByte b s).lp = s.lp := rfl
@[simp] theorem pushByte_cw (b : Byte) : (pushByte b s).cw = s.cw := rfl
@[simp] theorem pushByte_out (b : Byte) : (pushByte b s).out = s.out ++ [b] := rfl
@[simp] theorem pushByte_config (b : Byte) : (pushByte b s).config = s.config := rfl
@[simp] theorem pushByte_port (b : Byte) : (pushByte b s).port = s.port := rfl
@[simp] theorem pushByte_rspOut (b : Byte) : (pushByte b s).rspOut = s.rspOut ++ [b] := rfl
@[simp] theorem pushByte_seen (b : Byte) : (pushByte b s).seen = s.seen := rfl

@[simp] theorem observe_r (o : Observation) : (observe o s).r = s.r := rfl
@[simp] theorem observe_hl (o : Observation) : (observe o s).hl = s.hl := rfl
@[simp] theorem observe_nb (o : Observation) : (observe o s).nb = s.nb := rfl
@[simp] theorem observe_seeded (o : Observation) : (observe o s).seeded = s.seeded := rfl
@[simp] theorem observe_faulted (o : Observation) : (observe o s).faulted = s.faulted := rfl
@[simp] theorem observe_cause (o : Observation) : (observe o s).cause = s.cause := rfl
@[simp] theorem observe_finfo (o : Observation) : (observe o s).finfo = s.finfo := rfl
@[simp] theorem observe_ph (o : Observation) : (observe o s).ph = s.ph := rfl
@[simp] theorem observe_mask (o : Observation) : (observe o s).mask = s.mask := rfl
@[simp] theorem observe_fails (o : Observation) : (observe o s).fails = s.fails := rfl
@[simp] theorem observe_pn (o : Observation) : (observe o s).pn = s.pn := rfl
@[simp] theorem observe_ln (o : Observation) : (observe o s).ln = s.ln := rfl
@[simp] theorem observe_lp (o : Observation) : (observe o s).lp = s.lp := rfl
@[simp] theorem observe_cw (o : Observation) : (observe o s).cw = s.cw := rfl
@[simp] theorem observe_out (o : Observation) : (observe o s).out = s.out := rfl
@[simp] theorem observe_config (o : Observation) : (observe o s).config = s.config := rfl
@[simp] theorem observe_port (o : Observation) : (observe o s).port = s.port := rfl
@[simp] theorem observe_rspOut (o : Observation) : (observe o s).rspOut = s.rspOut := rfl
@[simp] theorem observe_seen (o : Observation) : (observe o s).seen = s.seen ++ [o] := rfl

@[simp] theorem respond_r (res : Byte) (bytes : List Byte) : (respond res bytes s).r = s.r := rfl
@[simp] theorem respond_hl (res : Byte) (bytes : List Byte) : (respond res bytes s).hl = s.hl := rfl
@[simp] theorem respond_nb (res : Byte) (bytes : List Byte) : (respond res bytes s).nb = s.nb := rfl
@[simp] theorem respond_seeded (res : Byte) (bytes : List Byte) : (respond res bytes s).seeded = s.seeded := rfl
@[simp] theorem respond_faulted (res : Byte) (bytes : List Byte) : (respond res bytes s).faulted = s.faulted := rfl
@[simp] theorem respond_cause (res : Byte) (bytes : List Byte) : (respond res bytes s).cause = s.cause := rfl
@[simp] theorem respond_finfo (res : Byte) (bytes : List Byte) : (respond res bytes s).finfo = s.finfo := rfl
@[simp] theorem respond_ph (res : Byte) (bytes : List Byte) : (respond res bytes s).ph = s.ph := rfl
@[simp] theorem respond_mask (res : Byte) (bytes : List Byte) : (respond res bytes s).mask = s.mask := rfl
@[simp] theorem respond_fails (res : Byte) (bytes : List Byte) : (respond res bytes s).fails = s.fails := rfl
@[simp] theorem respond_pn (res : Byte) (bytes : List Byte) : (respond res bytes s).pn = s.pn := rfl
@[simp] theorem respond_ln (res : Byte) (bytes : List Byte) : (respond res bytes s).ln = s.ln := rfl
@[simp] theorem respond_lp (res : Byte) (bytes : List Byte) : (respond res bytes s).lp = s.lp := rfl
@[simp] theorem respond_cw (res : Byte) (bytes : List Byte) : (respond res bytes s).cw = s.cw := rfl
@[simp] theorem respond_out (res : Byte) (bytes : List Byte) : (respond res bytes s).out = s.out := rfl
@[simp] theorem respond_config (res : Byte) (bytes : List Byte) : (respond res bytes s).config = s.config := rfl
@[simp] theorem respond_port (res : Byte) (bytes : List Byte) : (respond res bytes s).port = s.port := rfl
@[simp] theorem respond_rspOut (res : Byte) (bytes : List Byte) : (respond res bytes s).rspOut = s.rspOut := rfl
@[simp] theorem respond_seen (res : Byte) (bytes : List Byte) : (respond res bytes s).seen = s.seen ++ [.response res bytes] := rfl

@[simp] theorem enterFault_r (f : BlockFault) : (enterFault f s).r = s.r := rfl
@[simp] theorem enterFault_hl (f : BlockFault) : (enterFault f s).hl = s.hl := rfl
@[simp] theorem enterFault_nb (f : BlockFault) : (enterFault f s).nb = s.nb := rfl
@[simp] theorem enterFault_seeded (f : BlockFault) : (enterFault f s).seeded = s.seeded := rfl
@[simp] theorem enterFault_faulted (f : BlockFault) : (enterFault f s).faulted = true := rfl
@[simp] theorem enterFault_cause (f : BlockFault) : (enterFault f s).cause = causeCode f := rfl
@[simp] theorem enterFault_finfo (f : BlockFault) : (enterFault f s).finfo = faultInfo f := rfl
@[simp] theorem enterFault_ph (f : BlockFault) : (enterFault f s).ph = .idle := rfl
@[simp] theorem enterFault_mask (f : BlockFault) : (enterFault f s).mask = s.mask := rfl
@[simp] theorem enterFault_fails (f : BlockFault) : (enterFault f s).fails = s.fails := rfl
@[simp] theorem enterFault_pn (f : BlockFault) : (enterFault f s).pn = s.pn := rfl
@[simp] theorem enterFault_ln (f : BlockFault) : (enterFault f s).ln = s.ln := rfl
@[simp] theorem enterFault_lp (f : BlockFault) : (enterFault f s).lp = s.lp := rfl
@[simp] theorem enterFault_cw (f : BlockFault) : (enterFault f s).cw = s.cw := rfl
@[simp] theorem enterFault_out (f : BlockFault) : (enterFault f s).out = s.out := rfl
@[simp] theorem enterFault_config (f : BlockFault) : (enterFault f s).config = s.config := rfl
@[simp] theorem enterFault_port (f : BlockFault) : (enterFault f s).port = s.port := rfl
@[simp] theorem enterFault_rspOut (f : BlockFault) : (enterFault f s).rspOut = s.rspOut := rfl
@[simp] theorem enterFault_seen (f : BlockFault) : (enterFault f s).seen = s.seen := rfl

@[simp] theorem raiseFault_r (f : BlockFault) : (raiseFault f s).r = s.r := rfl
@[simp] theorem raiseFault_hl (f : BlockFault) : (raiseFault f s).hl = s.hl := rfl
@[simp] theorem raiseFault_nb (f : BlockFault) : (raiseFault f s).nb = s.nb := rfl
@[simp] theorem raiseFault_seeded (f : BlockFault) : (raiseFault f s).seeded = s.seeded := rfl
@[simp] theorem raiseFault_faulted (f : BlockFault) : (raiseFault f s).faulted = true := rfl
@[simp] theorem raiseFault_cause (f : BlockFault) : (raiseFault f s).cause = causeCode f := rfl
@[simp] theorem raiseFault_finfo (f : BlockFault) : (raiseFault f s).finfo = faultInfo f := rfl
@[simp] theorem raiseFault_ph (f : BlockFault) : (raiseFault f s).ph = .idle := rfl
@[simp] theorem raiseFault_mask (f : BlockFault) : (raiseFault f s).mask = s.mask := rfl
@[simp] theorem raiseFault_fails (f : BlockFault) : (raiseFault f s).fails = s.fails := rfl
@[simp] theorem raiseFault_pn (f : BlockFault) : (raiseFault f s).pn = s.pn := rfl
@[simp] theorem raiseFault_ln (f : BlockFault) : (raiseFault f s).ln = s.ln := rfl
@[simp] theorem raiseFault_lp (f : BlockFault) : (raiseFault f s).lp = s.lp := rfl
@[simp] theorem raiseFault_cw (f : BlockFault) : (raiseFault f s).cw = s.cw := rfl
@[simp] theorem raiseFault_out (f : BlockFault) : (raiseFault f s).out = s.out := rfl
@[simp] theorem raiseFault_config (f : BlockFault) : (raiseFault f s).config = s.config := rfl
@[simp] theorem raiseFault_port (f : BlockFault) : (raiseFault f s).port = s.port := rfl
@[simp] theorem raiseFault_rspOut (f : BlockFault) : (raiseFault f s).rspOut = s.rspOut := rfl
@[simp] theorem raiseFault_seen (f : BlockFault) : (raiseFault f s).seen = s.seen ++ [.response 0x00#8 []] := rfl

@[simp] theorem finishCommand_r : (finishCommand s).r = s.r := rfl
@[simp] theorem finishCommand_hl : (finishCommand s).hl = s.hl := rfl
@[simp] theorem finishCommand_nb : (finishCommand s).nb = s.nb := rfl
@[simp] theorem finishCommand_seeded : (finishCommand s).seeded = s.seeded := rfl
@[simp] theorem finishCommand_faulted : (finishCommand s).faulted = s.faulted := rfl
@[simp] theorem finishCommand_cause : (finishCommand s).cause = s.cause := rfl
@[simp] theorem finishCommand_finfo : (finishCommand s).finfo = s.finfo := rfl
@[simp] theorem finishCommand_ph : (finishCommand s).ph = .idle := rfl
@[simp] theorem finishCommand_mask : (finishCommand s).mask = s.mask := rfl
@[simp] theorem finishCommand_fails : (finishCommand s).fails = s.fails := rfl
@[simp] theorem finishCommand_pn : (finishCommand s).pn = s.pn := rfl
@[simp] theorem finishCommand_ln : (finishCommand s).ln = s.ln := rfl
@[simp] theorem finishCommand_lp : (finishCommand s).lp = s.lp := rfl
@[simp] theorem finishCommand_cw : (finishCommand s).cw = s.cw := rfl
@[simp] theorem finishCommand_out : (finishCommand s).out = s.out := rfl
@[simp] theorem finishCommand_config : (finishCommand s).config = s.config := rfl
@[simp] theorem finishCommand_port : (finishCommand s).port = s.port := rfl
@[simp] theorem finishCommand_rspOut : (finishCommand s).rspOut = [] := rfl
@[simp] theorem finishCommand_seen : (finishCommand s).seen = s.seen ++ [.response 0x00#8 s.rspOut] := rfl

@[simp] theorem startEncode_r (p l : Nibble) (b : Bool) : (startEncode p l b s).r = s.r := rfl
@[simp] theorem startEncode_hl (p l : Nibble) (b : Bool) : (startEncode p l b s).hl = s.hl := rfl
@[simp] theorem startEncode_nb (p l : Nibble) (b : Bool) : (startEncode p l b s).nb = s.nb := rfl
@[simp] theorem startEncode_seeded (p l : Nibble) (b : Bool) : (startEncode p l b s).seeded = s.seeded := rfl
@[simp] theorem startEncode_faulted (p l : Nibble) (b : Bool) : (startEncode p l b s).faulted = s.faulted := rfl
@[simp] theorem startEncode_cause (p l : Nibble) (b : Bool) : (startEncode p l b s).cause = s.cause := rfl
@[simp] theorem startEncode_finfo (p l : Nibble) (b : Bool) : (startEncode p l b s).finfo = s.finfo := rfl
@[simp] theorem startEncode_ph (p l : Nibble) (b : Bool) : (startEncode p l b s).ph = .eMask := rfl
@[simp] theorem startEncode_mask (p l : Nibble) (b : Bool) : (startEncode p l b s).mask = s.mask := rfl
@[simp] theorem startEncode_fails (p l : Nibble) (b : Bool) : (startEncode p l b s).fails = s.fails := rfl
@[simp] theorem startEncode_pn (p l : Nibble) (b : Bool) : (startEncode p l b s).pn = p := rfl
@[simp] theorem startEncode_ln (p l : Nibble) (b : Bool) : (startEncode p l b s).ln = l := rfl
@[simp] theorem startEncode_lp (p l : Nibble) (b : Bool) : (startEncode p l b s).lp = b := rfl
@[simp] theorem startEncode_cw (p l : Nibble) (b : Bool) : (startEncode p l b s).cw = s.cw := rfl
@[simp] theorem startEncode_out (p l : Nibble) (b : Bool) : (startEncode p l b s).out = s.out := rfl
@[simp] theorem startEncode_config (p l : Nibble) (b : Bool) : (startEncode p l b s).config = s.config := rfl
@[simp] theorem startEncode_port (p l : Nibble) (b : Bool) : (startEncode p l b s).port = s.port := rfl
@[simp] theorem startEncode_rspOut (p l : Nibble) (b : Bool) : (startEncode p l b s).rspOut = [] := rfl
@[simp] theorem startEncode_seen (p l : Nibble) (b : Bool) : (startEncode p l b s).seen = s.seen := rfl

@[simp] theorem beginSearch_r : (beginSearch s).r = (genMask s.config s.r).1 := rfl
@[simp] theorem beginSearch_hl : (beginSearch s).hl = s.hl := rfl
@[simp] theorem beginSearch_nb : (beginSearch s).nb = s.nb := rfl
@[simp] theorem beginSearch_seeded : (beginSearch s).seeded = s.seeded := rfl
@[simp] theorem beginSearch_faulted : (beginSearch s).faulted = s.faulted := rfl
@[simp] theorem beginSearch_cause : (beginSearch s).cause = s.cause := rfl
@[simp] theorem beginSearch_finfo : (beginSearch s).finfo = s.finfo := rfl
@[simp] theorem beginSearch_ph : (beginSearch s).ph = .eSrch := rfl
@[simp] theorem beginSearch_mask : (beginSearch s).mask = (genMask s.config s.r).2 := rfl
@[simp] theorem beginSearch_fails : (beginSearch s).fails = 0#6 := rfl
@[simp] theorem beginSearch_pn : (beginSearch s).pn = s.pn := rfl
@[simp] theorem beginSearch_ln : (beginSearch s).ln = s.ln := rfl
@[simp] theorem beginSearch_lp : (beginSearch s).lp = s.lp := rfl
@[simp] theorem beginSearch_cw : (beginSearch s).cw = s.cw := rfl
@[simp] theorem beginSearch_out : (beginSearch s).out = s.out := rfl
@[simp] theorem beginSearch_config : (beginSearch s).config = s.config := rfl
@[simp] theorem beginSearch_port : (beginSearch s).port = s.port := rfl
@[simp] theorem beginSearch_rspOut : (beginSearch s).rspOut = s.rspOut := rfl
@[simp] theorem beginSearch_seen : (beginSearch s).seen = s.seen := rfl

@[simp] theorem discardOne_r : (discardOne s).r = (genNibble s.config s.r).1 := rfl
@[simp] theorem discardOne_hl : (discardOne s).hl = s.hl := rfl
@[simp] theorem discardOne_nb : (discardOne s).nb = s.nb := rfl
@[simp] theorem discardOne_seeded : (discardOne s).seeded = s.seeded := rfl
@[simp] theorem discardOne_faulted : (discardOne s).faulted = s.faulted := rfl
@[simp] theorem discardOne_cause : (discardOne s).cause = s.cause := rfl
@[simp] theorem discardOne_finfo : (discardOne s).finfo = s.finfo := rfl
@[simp] theorem discardOne_ph : (discardOne s).ph = s.ph := rfl
@[simp] theorem discardOne_mask : (discardOne s).mask = s.mask := rfl
@[simp] theorem discardOne_fails : (discardOne s).fails = s.fails - 1#6 := rfl
@[simp] theorem discardOne_pn : (discardOne s).pn = s.pn := rfl
@[simp] theorem discardOne_ln : (discardOne s).ln = s.ln := rfl
@[simp] theorem discardOne_lp : (discardOne s).lp = s.lp := rfl
@[simp] theorem discardOne_cw : (discardOne s).cw = s.cw := rfl
@[simp] theorem discardOne_out : (discardOne s).out = s.out := rfl
@[simp] theorem discardOne_config : (discardOne s).config = s.config := rfl
@[simp] theorem discardOne_port : (discardOne s).port = s.port := rfl
@[simp] theorem discardOne_rspOut : (discardOne s).rspOut = s.rspOut := rfl
@[simp] theorem discardOne_seen : (discardOne s).seen = s.seen := rfl

@[simp] theorem resetInput_r : (resetInput s).r = 0#24 := rfl
@[simp] theorem resetInput_hl : (resetInput s).hl = false := rfl
@[simp] theorem resetInput_nb : (resetInput s).nb = 0#4 := rfl
@[simp] theorem resetInput_seeded : (resetInput s).seeded = false := rfl
@[simp] theorem resetInput_faulted : (resetInput s).faulted = false := rfl
@[simp] theorem resetInput_cause : (resetInput s).cause = 0#2 := rfl
@[simp] theorem resetInput_finfo : (resetInput s).finfo = 0x00#8 := rfl
@[simp] theorem resetInput_ph : (resetInput s).ph = .idle := rfl
@[simp] theorem resetInput_mask : (resetInput s).mask = 0#8 := rfl
@[simp] theorem resetInput_fails : (resetInput s).fails = 0#6 := rfl
@[simp] theorem resetInput_pn : (resetInput s).pn = 0#4 := rfl
@[simp] theorem resetInput_ln : (resetInput s).ln = 0#4 := rfl
@[simp] theorem resetInput_lp : (resetInput s).lp = false := rfl
@[simp] theorem resetInput_cw : (resetInput s).cw = 0#8 := rfl
@[simp] theorem resetInput_out : (resetInput s).out = s.out := rfl
@[simp] theorem resetInput_config : (resetInput s).config = s.config := rfl
@[simp] theorem resetInput_port : (resetInput s).port = s.port := rfl
@[simp] theorem resetInput_rspOut : (resetInput s).rspOut = [] := rfl
@[simp] theorem resetInput_seen : (resetInput s).seen = s.seen := rfl

@[simp] theorem drawBit_fst : (drawBit s).1 = setR (genNext s.config s.r) s := rfl
@[simp] theorem drawBit_snd : (drawBit s).2 = (genNext s.config s.r).getLsbD 0 := rfl
@[simp] theorem drawNibble_fst : (drawNibble s).1 = setR (genNibble s.config s.r).1 s := rfl
@[simp] theorem drawNibble_snd : (drawNibble s).2 = (genNibble s.config s.r).2 := rfl
@[simp] theorem drawMask_fst : (drawMask s).1 = setR (genMask s.config s.r).1 s := rfl
@[simp] theorem drawMask_snd : (drawMask s).2 = (genMask s.config s.r).2 := rfl

end Sys2Proof.Machine
end

