-- ==== Sys2Proof/Laws/Ops.lean ====
section
/-! SUPPORT. For each shared operation that can stop or turn a command away, one lemma that says everything it can do,
and one that says when the body runs. -/

namespace Sys2Proof.Machine

/-- Everything the gate of a command can do when it answers a next state. -/
theorem onCommand_next {body : State → Result} {s t : State} (h : onCommand body s = .next t) :
    s.ph = .idle ∧
      ((s.faulted = true ∧ t = respond 0x00#8 [] s) ∨ (s.faulted = false ∧ body s = .next t)) := by
  unfold onCommand at h
  split at h
  · cases h
  · rename_i hp
    refine ⟨not_not.mp hp, ?_⟩
    split at h
    · rename_i hf; exact .inl ⟨hf, by cases h; rfl⟩
    · rename_i hf; exact .inr ⟨by simpa using hf, h⟩

/-- An accepted command runs its body. -/
theorem onCommand_ready {body : State → Result} {s : State} (hp : s.ph = .idle) (hf : s.faulted = false) :
    onCommand body s = body s := by simp [onCommand, hp, hf]

/-- Everything the gate of a drawing command can do when it answers a next state. -/
theorem onSeeded_next {op : OpCode} {body : State → Result} {s t : State} (h : onSeeded op body s = .next t) :
    (s.seeded = true ∧ body s = .next t) ∨ (s.seeded = false ∧ t = raiseFault (.notSeeded op) s) := by
  unfold onSeeded at h
  split at h
  · rename_i hs; exact .inl ⟨hs, h⟩
  · rename_i hs; exact .inr ⟨by simpa using hs, by cases h; rfl⟩

/-- A seeded block runs the body of a drawing command. -/
theorem onSeeded_seeded {op : OpCode} {body : State → Result} {s : State} (hs : s.seeded = true) :
    onSeeded op body s = body s := by simp [onSeeded, hs]

/-- Everything the gate of a codeword can do when it answers a next state. -/
theorem onCodeword_next {body : State → Result} {s t : State} (h : onCodeword body s = .next t) :
    s.ph = .dMask ∧ body s = .next t := by
  unfold onCodeword at h
  split at h
  · rename_i hp; exact ⟨hp, h⟩
  · cases h

/-- In phase `D_MASK` a codeword runs its body. -/
theorem onCodeword_dMask {body : State → Result} {s : State} (hp : s.ph = .dMask) : onCodeword body s = body s := by
  simp [onCodeword, hp]

/-- Phase `E_SRCH` answers a next state: the byte of a match is pushed, or the rejection is counted. -/
theorem phaseESrch_next {s t : State} (h : phaseESrch s = .next t) :
    (∃ d, tabDisc (s.pn ^^^ (genNibble s.config s.r).2) = some d ∧
        t = afterMatch (pushByte (applyMask (makeCodeword s.fails d) s.mask)
              (setR (genNibble s.config s.r).1 s))) ∨
      (tabValid (s.pn ^^^ (genNibble s.config s.r).2) = false ∧
        t = afterReject (setR (genNibble s.config s.r).1 s)) := by
  unfold phaseESrch at h
  split at h
  · split at h
    · rename_i d hd; exact .inl ⟨d, hd, by cases h; rfl⟩
    · cases h
  · rename_i hv; exact .inr ⟨by simpa using hv, by cases h; rfl⟩

/-- Phase `E_SRCH` always answers a next state: a read of `DISC` is guarded by `VALID`. -/
theorem phaseESrch_isNext (s : State) : ∃ t, phaseESrch s = .next t := by
  have hd := tabDisc_isSome (s.pn ^^^ (genNibble s.config s.r).2)
  cases hv : tabValid (s.pn ^^^ (genNibble s.config s.r).2) with
  | true =>
    obtain ⟨d, hd'⟩ := Option.isSome_iff_exists.mp (hd.trans hv)
    exact ⟨_, by simp only [phaseESrch, drawNibble_snd, hv, hd', if_true]; rfl⟩
  | false => exact ⟨_, by simp only [phaseESrch, drawNibble_snd, hv]; rfl⟩

/-- Phase `D_KEEP` answers a next state: the kept nibble is corrected and framed, and the command is over. -/
theorem phaseDKeep_next {s t : State} (h : phaseDKeep s = .next t) :
    ∃ e, tabInv (discrepancyField s.cw) = some e ∧
      t = finishCommand (frameNibble ((genNibble s.config s.r).2 ^^^ e) (setR (genNibble s.config s.r).1 s)) := by
  unfold phaseDKeep at h
  split at h
  · rename_i e he; exact ⟨e, he, by cases h; rfl⟩
  · cases h

end Sys2Proof.Machine
end

