-- ==== Sys2Proof/Laws/PerInstr.lean ====
section
/-! SUPPORT. Statements made per instruction. `TableRow`: the word the encoder gives an instruction lies in that
instruction's row of spec/opcode_table.json: for a command row `cmd[67:64]` is the row's code; `CW.ESC` is 0xFF; the row
of any other codeword is told by `cw[2:0]`, and the word is not 0xFF (30_encoding.md R47, R55). -/

namespace Sys2Proof.Laws

/-- The low three bits that the row of a codeword other than the sentinel fixes (30_encoding.md R55). -/
def rowDiscrepancy : Instr → Option DiscCode
  | .cwMatch0 _ => some 0#3
  | .cwMatch1 _ => some 1#3
  | .cwMatch2 _ => some 2#3
  | .cwMatch3 _ => some 3#3
  | .cwMatch4 _ => some 4#3
  | .cwBad5 _ => some 5#3
  | .cwBad6 _ => some 6#3
  | .cwBad7 _ => some 7#3
  | .nop => none
  | .init _ => none
  | .step => none
  | .nibble => none
  | .mask => none
  | .encn _ => none
  | .encb _ => none
  | .decb _ => none
  | .drst => none
  | .reserved9 => none
  | .reservedA => none
  | .reservedB => none
  | .reservedC => none
  | .reservedD => none
  | .reservedE => none
  | .reservedF => none
  | .cwEsc => none

def TableRow.Statement (i : Instr) : Prop :=
  WellFormed i = true →
    match encode i with
    | .command w => i.opCode = some (opField w)
    | .codeword cw => i.opCode = none ∧
        ((rowDiscrepancy i = none ∧ cw = escCodeword) ∨
          (rowDiscrepancy i = some (discrepancyField cw) ∧ cw ≠ escCodeword))

/-- The code of a command word is the code it was put together from. -/
theorem opField_commandWord (op : OpCode) (arg : Arg) : opField (commandWord op arg) = op := by
  apply BitVec.eq_of_getLsbD_eq
  intro i hi
  have h := BitVec.getLsbD_append (x := op) (y := arg) (i := 64 + i)
  have h' : (commandWord op arg).getLsbD (64 + i) = _ := h
  simp only [opField, BitVec.getLsbD_extractLsb', hi, h']
  simp

/-- The operand of a command word is the operand it was put together from. -/
theorem argField_commandWord (op : OpCode) (arg : Arg) : argField (commandWord op arg) = arg := by
  apply BitVec.eq_of_getLsbD_eq
  intro i hi
  have h := BitVec.getLsbD_append (x := op) (y := arg) (i := 0 + i)
  have h' : (commandWord op arg).getLsbD (0 + i) = _ := h
  simp only [argField, BitVec.getLsbD_extractLsb', hi, h']
  simp [hi]

/-- A codeword other than the sentinel lies in the row its low three bits name. -/
theorem tableRow_of_fields {i : Instr} {cw : Byte} (he : encode i = .codeword cw) (ho : i.opCode = none)
    (hr : rowDiscrepancy i = some (discrepancyField cw)) (hn : WellFormed i = true → cw ≠ escCodeword) :
    TableRow.Statement i := by
  intro hw
  rw [he]
  exact ⟨ho, .inr ⟨hr, hn hw⟩⟩

theorem TableRow.nop : TableRow.Statement (.nop) :=
  fun _ => by simp [encode, Instr.opCode, opField_commandWord]

theorem TableRow.init (key : Arg) : TableRow.Statement (.init key) :=
  fun _ => by simp [encode, Instr.opCode, opField_commandWord]

theorem TableRow.step : TableRow.Statement (.step) :=
  fun _ => by simp [encode, Instr.opCode, opField_commandWord]

theorem TableRow.nibble : TableRow.Statement (.nibble) :=
  fun _ => by simp [encode, Instr.opCode, opField_commandWord]

theorem TableRow.mask : TableRow.Statement (.mask) :=
  fun _ => by simp [encode, Instr.opCode, opField_commandWord]

theorem TableRow.encn (p : Nibble) : TableRow.Statement (.encn p) :=
  fun _ => by simp [encode, Instr.opCode, opField_commandWord]

theorem TableRow.encb (b : Byte) : TableRow.Statement (.encb b) :=
  fun _ => by simp [encode, Instr.opCode, opField_commandWord]

theorem TableRow.decb (c : Byte) : TableRow.Statement (.decb c) :=
  fun _ => by simp [encode, Instr.opCode, opField_commandWord]

theorem TableRow.drst : TableRow.Statement (.drst) :=
  fun _ => by simp [encode, Instr.opCode, opField_commandWord]

theorem TableRow.reserved9 : TableRow.Statement (.reserved9) :=
  fun _ => by simp [encode, Instr.opCode, opField_commandWord]

theorem TableRow.reservedA : TableRow.Statement (.reservedA) :=
  fun _ => by simp [encode, Instr.opCode, opField_commandWord]

theorem TableRow.reservedB : TableRow.Statement (.reservedB) :=
  fun _ => by simp [encode, Instr.opCode, opField_commandWord]

theorem TableRow.reservedC : TableRow.Statement (.reservedC) :=
  fun _ => by simp [encode, Instr.opCode, opField_commandWord]

theorem TableRow.reservedD : TableRow.Statement (.reservedD) :=
  fun _ => by simp [encode, Instr.opCode, opField_commandWord]

theorem TableRow.reservedE : TableRow.Statement (.reservedE) :=
  fun _ => by simp [encode, Instr.opCode, opField_commandWord]

theorem TableRow.reservedF : TableRow.Statement (.reservedF) :=
  fun _ => by simp [encode, Instr.opCode, opField_commandWord]

theorem TableRow.cwEsc : TableRow.Statement .cwEsc := fun _ => ⟨rfl, .inl ⟨rfl, rfl⟩⟩

theorem TableRow.cwMatch0 (f : BitVec 5) : TableRow.Statement (.cwMatch0 f) :=
  tableRow_of_fields rfl rfl (by revert f; decide) (by revert f; decide)

theorem TableRow.cwMatch1 (f : BitVec 5) : TableRow.Statement (.cwMatch1 f) :=
  tableRow_of_fields rfl rfl (by revert f; decide) (by revert f; decide)

theorem TableRow.cwMatch2 (f : BitVec 5) : TableRow.Statement (.cwMatch2 f) :=
  tableRow_of_fields rfl rfl (by revert f; decide) (by revert f; decide)

theorem TableRow.cwMatch3 (f : BitVec 5) : TableRow.Statement (.cwMatch3 f) :=
  tableRow_of_fields rfl rfl (by revert f; decide) (by revert f; decide)

theorem TableRow.cwMatch4 (f : BitVec 5) : TableRow.Statement (.cwMatch4 f) :=
  tableRow_of_fields rfl rfl (by revert f; decide) (by revert f; decide)

theorem TableRow.cwBad5 (f : BitVec 5) : TableRow.Statement (.cwBad5 f) :=
  tableRow_of_fields rfl rfl (by revert f; decide) (by revert f; decide)

theorem TableRow.cwBad6 (f : BitVec 5) : TableRow.Statement (.cwBad6 f) :=
  tableRow_of_fields rfl rfl (by revert f; decide) (by revert f; decide)

theorem TableRow.cwBad7 (f : BitVec 5) : TableRow.Statement (.cwBad7 f) :=
  tableRow_of_fields rfl rfl (by revert f; decide) (by revert f; decide)

end Sys2Proof.Laws
end

