-- ==== Sys2Proof/Laws/Step.lean ====
section
/-! SUPPORT. Everything a step can do, said once: `Move` lists the moves of the block, and `step_next` says that a step
that answers a next state is one of them. Later proofs are case analyses over `Move`. -/

namespace Sys2Proof.Machine

/-- A step with no host action left is the transition the phase enables. -/
theorem step_of_port_nil {s : State} (h : s.port = []) : step s = takeTransition s := by simp [step, h]

/-- A step with a host action on the port is that action. -/
theorem step_of_port_cons {s : State} {a : HostAction} {rest : List HostAction} (h : s.port = a :: rest) :
    step s = hostAct a { s with port := rest } := by simp [step, h]

/-- A command word always decodes to a command. -/
theorem decodeCommand_isCommand (w : CmdWord) : (decodeCommand w).isCommand = true := by
  unfold decodeCommand decodeOp
  split <;> rfl

/-- A codeword never decodes to a command. -/
theorem decodeCodeword_isCommand (cw : Byte) : (decodeCodeword cw).isCommand = false := by
  revert cw; decide

/-- The moves of the block, from a state whose port is already as the step leaves it. -/
inductive Move (s : State) : State → Prop
  /-- An idle block waits (60_exceptions.md R123). -/
  | stays (h : s.ph = .idle) : Move s s
  /-- The host reads `STATUS`, `FINFO` or `OUT` (70_reset_and_hazards.md R143). -/
  | shows (o : Observation) (h : ∀ res bytes, o ≠ .response res bytes) : Move s (observe o s)
  /-- The host asserts reset (70_reset_and_hazards.md R130). -/
  | resets : Move s (resetInput s)
  /-- `NOP`, or any command while `FAULT = 1` (40_generator.md R70; 60_exceptions.md R117). -/
  | answers (h : s.ph = .idle) : Move s (respond 0x00#8 [] s)
  | inits (key : Arg) (h : Ready s) :
      Move s (respond 0x00#8 [] { s with r := seedOfKey key, seeded := true, hl := false })
  | clearsFraming (h : Ready s) : Move s (respond 0x00#8 [] { s with hl := false })
  | drawsBit (h : Ready s) (hs : s.seeded = true) :
      Move s (respond (bitResult ((genNext s.config s.r).getLsbD 0)) [] (setR (genNext s.config s.r) s))
  | drawsNibble (h : Ready s) (hs : s.seeded = true) :
      Move s (respond (nibbleResult (genNibble s.config s.r).2) [] (setR (genNibble s.config s.r).1 s))
  | drawsMask (h : Ready s) (hs : s.seeded = true) :
      Move s (respond (genMask s.config s.r).2 [] (setR (genMask s.config s.r).1 s))
  | startsEncode (p l : Nibble) (b : Bool) (h : Ready s) (hs : s.seeded = true) : Move s (startEncode p l b s)
  | startsDecode (c : Byte) (h : Ready s) (hs : s.seeded = true) :
      Move s { s with cw := c, ph := .dMask, rspOut := [] }
  | lacksSeed (op : OpCode) (h : Ready s) (hs : s.seeded = false) : Move s (raiseFault (.notSeeded op) s)
  | isIllegal (op : OpCode) (h : Ready s) : Move s (raiseFault (.illegalCommand op) s)
  | drawsFirstMask (h : s.ph = .eMask) : Move s (beginSearch s)
  | matchesNibble (d : DiscCode) (h : s.ph = .eSrch) (hd : tabDisc (s.pn ^^^ (genNibble s.config s.r).2) = some d) :
      Move s (afterMatch (pushByte (applyMask (makeCodeword s.fails d) s.mask) (setR (genNibble s.config s.r).1 s)))
  | rejectsNibble (h : s.ph = .eSrch) (hv : tabValid (s.pn ^^^ (genNibble s.config s.r).2) = false) :
      Move s (afterReject (setR (genNibble s.config s.r).1 s))
  | escapes (h : s.ph = .eOvf) : Move s (beginSearch (pushByte (applyMask escCodeword s.mask) s))
  | findsEscape (h : s.ph = .dMask) :
      Move s { (unmaskCodeword s).1 with cw := escCodeword, fails := maxFail, ph := .dEsc }
  | findsMatch (f : BitVec 5) (d : DiscCode) (hd : d.toNat ≤ 4) (h : s.ph = .dMask) :
      Move s (startMatch f d (unmaskCodeword s).1)
  | findsMalformed (f : BitVec 5) (d : DiscCode) (hd : 5 ≤ d.toNat) (h : s.ph = .dMask) :
      Move s (malformed f d (unmaskCodeword s).1)
  | discardsEscaped (h : s.ph = .dEsc) :
      Move s (if s.fails = 1#6 then finishCommand (discardOne s) else discardOne s)
  | discardsRejected (h : s.ph = .dSkip) :
      Move s (if s.fails = 1#6 then { discardOne s with ph := .dKeep } else discardOne s)
  | keepsNibble (e : Nibble) (h : s.ph = .dKeep) (he : tabInv (discrepancyField s.cw) = some e) :
      Move s (finishCommand (frameNibble ((genNibble s.config s.r).2 ^^^ e) (setR (genNibble s.config s.r).1 s)))

/-- A codeword run in phase `D_MASK`: the sentinel, a match or a malformed codeword. -/
theorem exec_codeword_next {i : Instr} {s t : State} (hi : i.isCommand = false) (h : exec i s = .next t) :
    s.ph = .dMask ∧
      (t = { s with cw := escCodeword, fails := maxFail, ph := .dEsc } ∨
        (∃ f d, d.toNat ≤ 4 ∧ t = startMatch f d s) ∨ (∃ f d, 5 ≤ d.toNat ∧ t = malformed f d s)) := by
  cases i <;> try (simp [Instr.isCommand, Instr.opCode] at hi; done)
  all_goals simp only [exec, execCwEsc, execCwMatch0, execCwMatch1, execCwMatch2, execCwMatch3, execCwMatch4,
    execCwBad5, execCwBad6, execCwBad7] at h
  case cwEsc => obtain ⟨hp, hb⟩ := onCodeword_next h; cases hb; exact ⟨hp, .inl rfl⟩
  case cwMatch0 f | cwMatch1 f | cwMatch2 f | cwMatch3 f | cwMatch4 f =>
    obtain ⟨hp, hb⟩ := onCodeword_next h
    cases hb; exact ⟨hp, .inr (.inl ⟨f, _, by decide, rfl⟩)⟩
  case cwBad5 f | cwBad6 f | cwBad7 f =>
    obtain ⟨hp, hb⟩ := onCodeword_next h
    cases hb; exact ⟨hp, .inr (.inr ⟨f, _, by decide, rfl⟩)⟩

/-- A command that answers a next state is a move. -/
theorem exec_command_next {i : Instr} {s t : State} (hi : i.isCommand = true) (h : exec i s = .next t) : Move s t := by
  cases i <;> try (simp [Instr.isCommand, Instr.opCode] at hi; done)
  all_goals simp only [exec, execNop, execInit, execStep, execNibble, execMask, execEncn, execEncb, execDecb, execDrst,
    execReserved9, execReservedA, execReservedB, execReservedC, execReservedD, execReservedE, execReservedF] at h
  all_goals
    obtain ⟨hp, ⟨-, rfl⟩ | ⟨hf, hb⟩⟩ := onCommand_next h
    · exact .answers hp
  case nop => cases hb; exact .answers hp
  case init key => cases hb; exact .inits key ⟨hp, hf⟩
  case drst => cases hb; exact .clearsFraming ⟨hp, hf⟩
  case step | nibble | mask | encn | encb | decb =>
    obtain ⟨hs, hb⟩ | ⟨hs, rfl⟩ := onSeeded_next hb
    · cases hb
      first
        | exact .drawsBit ⟨hp, hf⟩ hs
        | exact .drawsNibble ⟨hp, hf⟩ hs
        | exact .drawsMask ⟨hp, hf⟩ hs
        | exact .startsEncode _ _ _ ⟨hp, hf⟩ hs
        | exact .startsDecode _ ⟨hp, hf⟩ hs
    · exact .lacksSeed _ ⟨hp, hf⟩ hs
  all_goals cases hb; exact .isIllegal _ ⟨hp, hf⟩

/-- A transition that answers a next state is a move. -/
theorem takeTransition_next {s t : State} (h : takeTransition s = .next t) : Move s t := by
  unfold takeTransition at h
  split at h <;> rename_i hp
  · cases h; exact .stays hp
  · cases h; exact .drawsFirstMask hp
  · obtain ⟨d, hd, rfl⟩ | ⟨hv, rfl⟩ := phaseESrch_next h
    · exact .matchesNibble d hp hd
    · exact .rejectsNibble hp hv
  · cases h; exact .escapes hp
  · obtain ⟨-, rfl | ⟨f, d, hd, rfl⟩ | ⟨f, d, hd, rfl⟩⟩ := exec_codeword_next (decodeCodeword_isCommand _) h
    · exact .findsEscape hp
    · exact .findsMatch f d hd hp
    · exact .findsMalformed f d hd hp
  · cases h; exact .discardsEscaped hp
  · cases h; exact .discardsRejected hp
  · obtain ⟨e, he, rfl⟩ := phaseDKeep_next h
    exact .keepsNibble e hp he

/-- Everything a step can do: it changes the port, and makes one move. -/
theorem step_next {s t : State} (h : step s = .next t) : ∃ p, Move { s with port := p } t := by
  unfold step at h
  split at h
  · exact ⟨s.port, takeTransition_next h⟩
  · rename_i a rest _
    cases a with
    | wait => exact ⟨rest, takeTransition_next h⟩
    | awaitIdle =>
      simp only [hostAct] at h
      split at h
      · rename_i hp; cases h; exact ⟨rest, .stays hp⟩
      · exact ⟨.awaitIdle :: rest, takeTransition_next h⟩
    | reset => cases h; exact ⟨rest, .resets⟩
    | issue w => exact ⟨rest, exec_command_next (decodeCommand_isCommand w) h⟩
    | readStatus => cases h; exact ⟨rest, .shows _ (by simp)⟩
    | readFinfo => cases h; exact ⟨rest, .shows _ (by simp)⟩
    | takeOut => cases h; exact ⟨rest, .shows _ (by simp)⟩

end Sys2Proof.Machine
end

