-- ==== Sys2Proof/Tests/Slice0.lean ====
section
/-! SUPPORT. The model's own tests, and a witness for every statement with hypotheses. Expected values come from
spec/95_test_vectors.md (for the tap pair (17, 18) from spec/96_test_vectors_alt_taps.md) or are written out from the
encodings of spec/30_encoding.md; never from the model. -/

open Sys2Proof Sys2Proof.Machine

namespace Sys2Proof.Tests

/-- The next state of an answer, if it is one. -/
def nextOf : Result → Option State
  | .next s => some s
  | .fault _ => none
  | .refused _ => none

/-- The stop of an answer, if it is a refusal. -/
def refusalOf : Result → Option Refusal
  | .next _ => none
  | .fault _ => none
  | .refused r => some r

/-- The hardware, idle and seeded with `r`. -/
def seededAt (r : GenReg) : State := { State.reset with r := r, seeded := true }

/-- The hardware seeded with `r`, in phase `p`. -/
def phaseAt (p : Phase) (r : GenReg) : State := { seededAt r with ph := p }

/-- What the host was shown last. -/
def lastSeen (s : State) : Option Observation := s.seen.getLast?

/-! ## Well-formedness and decoding -/

theorem test_sentinel_is_no_bad_codeword : checkForm (.cwBad7 31#5) = .error .sentinelAsBad := by decide

theorem test_next_to_sentinel_is_bad : checkForm (.cwBad7 30#5) = .ok () := by decide

theorem test_sentinel_as_bad_is_ill_formed : WellFormed (.cwBad7 31#5) = false := by decide

theorem test_config_refuses_width : Config.build 23 7 18 = .error .width := by decide

theorem test_config_refuses_tap_range :
    Config.build 24 7 24 = .error .tapOutOfRange ∧ Config.build 24 24 7 = .error .tapOutOfRange := by decide

theorem test_config_refuses_tap_zero :
    Config.build 24 0 18 = .error .tapAtZero ∧ Config.build 24 7 0 = .error .tapAtZero := by decide

theorem test_config_refuses_equal_taps : Config.build 24 7 7 = .error .tapsEqual := by decide

theorem test_config_builds : Config.build 24 7 18 = .ok .hardware ∧ Config.build 24 17 18 = .ok .printed := by decide

theorem test_decode_refuses_formats :
    decode 16 0 = .error .noSuchFormat ∧ decode 8 0x100 = .error .bitsAboveWord ∧
    decode 72 0x100000000000000000 = .error .bitsAboveWord := by decide

/-- Command words: op in bits 67:64, operand in the low bits (30_encoding.md R46, R47, R60). -/
theorem test_decode_nop : decode 72 0x00000000000000000 = .ok .nop := by decide
theorem test_decode_init : decode 72 0x1DEADBEEF12345678 = .ok (.init 0xDEADBEEF12345678#64) := by decide
theorem test_decode_step : decode 72 0x20000000000000000 = .ok .step := by decide
theorem test_decode_nibble : decode 72 0x30000000000000000 = .ok .nibble := by decide
theorem test_decode_mask : decode 72 0x40000000000000000 = .ok .mask := by decide
theorem test_decode_encn : decode 72 0x50000000000000004 = .ok (.encn 0x4#4) := by decide
theorem test_decode_encn_ignored : decode 72 0x500000000000000F1 = .ok (.encn 0x1#4) := by decide
theorem test_decode_encb : decode 72 0x60000000123456741 = .ok (.encb 0x41#8) := by decide
theorem test_decode_decb : decode 68 0x70000000000000054 = .ok (.decb 0x54#8) := by decide
theorem test_decode_drst : decode 72 0x80000000000000000 = .ok .drst := by decide
theorem test_decode_reserved9 : decode 72 0x90000000000000041 = .ok .reserved9 := by decide
theorem test_decode_reservedA : decode 72 0xA0000000000000000 = .ok .reservedA := by decide
theorem test_decode_reservedB : decode 72 0xB0000000000000000 = .ok .reservedB := by decide
theorem test_decode_reservedC : decode 72 0xC0000000000000000 = .ok .reservedC := by decide
theorem test_decode_reservedD : decode 72 0xD0000000000000000 = .ok .reservedD := by decide
theorem test_decode_reservedE : decode 72 0xE0000000000000000 = .ok .reservedE := by decide
theorem test_decode_reservedF : decode 72 0xF0000000000000000 = .ok .reservedF := by decide

/-- Codewords: fail_count in bits 7:3, discrepancy in bits 2:0 (30_encoding.md R54, R55), bit by bit. -/
theorem test_decode_cwEsc : decode 8 0b11111111 = .ok .cwEsc := by decide
theorem test_decode_cwMatch0 : decode 8 0b11111000 = .ok (.cwMatch0 31#5) := by decide
theorem test_decode_cwMatch1 : decode 8 0b00010001 = .ok (.cwMatch1 2#5) := by decide
theorem test_decode_cwMatch2 : decode 8 0b00011010 = .ok (.cwMatch2 3#5) := by decide
theorem test_decode_cwMatch3 : decode 8 0b00000011 = .ok (.cwMatch3 0#5) := by decide
theorem test_decode_cwMatch4 : decode 8 0b01010100 = .ok (.cwMatch4 10#5) := by decide
theorem test_decode_cwBad5 : decode 8 0b00000101 = .ok (.cwBad5 0#5) := by decide
theorem test_decode_cwBad6 : decode 8 0b11111110 = .ok (.cwBad6 31#5) := by decide
theorem test_decode_cwBad7 : decode 8 0b00000111 = .ok (.cwBad7 0#5) := by decide

/-! ## One step of each instruction -/

theorem test_nop : (nextOf (exec .nop State.reset)) = some { State.reset with seen := [.response 0x00#8 []] } := by
  decide

theorem test_init : (nextOf (exec (.init 0xDEADBEEF12345678#64) { State.reset with hl := true })).map
    (fun t => (t.r, t.seeded, t.hl)) = some (0x345678#24, true, false) := by decide

theorem test_step : (nextOf (exec .step (seededAt 0x123456#24))).map (fun t => (t.r, lastSeen t)) =
    some (0x891A2B#24, some (.response 0x01#8 [])) := by decide

/-- The two rows that tell the tap pair (7, 18) from (17, 18). -/
theorem test_step_taps : (genStep .hardware 0x040080#24, genStep .hardware 0x060000#24, genStep .printed 0x040080#24,
    genStep .printed 0x060000#24) =
    ((0x820040#24, false), (0x030000#24, false), (0x020040#24, false), (0x830000#24, false)) := by decide

theorem test_nibble : (nextOf (exec .nibble (seededAt 0x123456#24))).map (fun t => (t.r, lastSeen t)) =
    some (0x712345#24, some (.response 0x0B#8 [])) := by decide

theorem test_mask : (nextOf (exec .mask (seededAt 0x123456#24))).map (fun t => (t.r, t.mask, lastSeen t)) =
    some (0x371234#24, 0x00#8, some (.response 0xB2#8 [])) := by decide

/-- The rows that fix which nibble of a mask is the high one. -/
theorem test_mask_order : ((genMask .hardware 0x00001E#24).2, (genMask .hardware 0x0001E0#24).2) = (0xF0#8, 0x0F#8) := by
  decide

theorem test_encn : (nextOf (exec (.encn 0xF#4) (seededAt 0x2180FD#24))).map (fun t => (t.ph, t.pn, t.lp, t.r)) =
    some (.eMask, 0xF#4, false, 0x2180FD#24) := by decide

theorem test_encb : (nextOf (exec (.encb 0x41#8) (seededAt 0xAAAAAA#24))).map (fun t => (t.ph, t.pn, t.ln, t.lp, t.r)) =
    some (.eMask, 0x4#4, 0x1#4, true, 0xAAAAAA#24) := by decide

theorem test_decb : (nextOf (exec (.decb 0x54#8) (seededAt 0xAAAAAA#24))).map (fun t => (t.ph, t.cw, t.r)) =
    some (.dMask, 0x54#8, 0xAAAAAA#24) := by decide

theorem test_drst : (nextOf (exec .drst { seededAt 0xE15AAA#24 with hl := true, nb := 0x4#4 })).map
    (fun t => (t.hl, t.nb, t.r)) = some (false, 0x4#4, 0xE15AAA#24) := by decide

/-- Reserved codes, unseeded: `IllegalCommand` wins over `NotSeeded` (60_exceptions.md R118). -/
theorem test_reserved : ([.reserved9, .reservedA, .reservedB, .reservedC, .reservedD, .reservedE, .reservedF].map
    fun i => (nextOf (exec i State.reset)).map fun t => (t.faulted, t.cause, t.finfo)) =
    ([0x09#8, 0x0A#8, 0x0B#8, 0x0C#8, 0x0D#8, 0x0E#8, 0x0F#8].map fun b => some (true, 3#2, b)) := by decide

/-- Unseeded drawing commands: `NotSeeded`, `FINFO` the command code (95_test_vectors.md 2.6). -/
theorem test_not_seeded : ([.step, .nibble, .mask, .encn 4#4, .encb 0x41#8, .decb 0x54#8].map
    fun i => (nextOf (exec i State.reset)).map fun t => (t.faulted, t.cause, t.finfo)) =
    ([0x02#8, 0x03#8, 0x04#8, 0x05#8, 0x06#8, 0x07#8].map fun b => some (true, 2#2, b)) := by decide

theorem test_cwEsc : (nextOf (exec .cwEsc (phaseAt .dMask 0x15AAAA#24))).map (fun t => (t.ph, t.fails, t.cw)) =
    some (.dEsc, 32#6, 0xFF#8) := by decide

theorem test_cwMatch : ([.cwMatch0 1#5, .cwMatch1 2#5, .cwMatch2 21#5, .cwMatch3 0#5, .cwMatch4 31#5].map
    fun i => (nextOf (exec i (phaseAt .dMask 0x15AAAA#24))).map fun t => (t.ph, t.fails, t.cw)) =
    [some (.dSkip, 1#6, 0x08#8), some (.dSkip, 2#6, 0x11#8), some (.dSkip, 21#6, 0xAA#8), some (.dKeep, 0#6, 0x03#8),
      some (.dSkip, 31#6, 0xFC#8)] := by decide

theorem test_cwBad : ([.cwBad5 10#5, .cwBad6 31#5, .cwBad7 0#5].map
    fun i => (nextOf (exec i (phaseAt .dMask 0x15AAAA#24))).map fun t => (t.ph, t.faulted, t.cause, t.finfo)) =
    [some (.idle, true, 1#2, 0x55#8), some (.idle, true, 1#2, 0xFE#8), some (.idle, true, 1#2, 0x07#8)] := by decide

/-! ## Phases, faults, host actions, placement -/

theorem test_phase_eMask : (nextOf (step (phaseAt .eMask 0xAAAAAA#24))).map (fun t => (t.ph, t.r, t.mask, t.fails)) =
    some (.eSrch, 0x15AAAA#24, 0x55#8, 0#6) := by decide

theorem test_phase_eSrch_match :
    (nextOf (step { phaseAt .eSrch 0x15AAAA#24 with mask := 0x55#8, pn := 4#4, ln := 1#4, lp := true })).map
      (fun t => (t.ph, t.r, t.pn, t.lp, t.out)) = some (.eMask, 0xE15AAA#24, 1#4, false, [0x54#8]) := by decide

/-- The match that ends an `ENCB`: two bytes in the response, high nibble's first. -/
theorem test_phase_eSrch_last :
    (nextOf (step { phaseAt .eSrch 0xD17AE1#24 with
      mask := 0x55#8, pn := 1#4, fails := 2#6, out := [0x54#8], rspOut := [0x54#8] })).map
      (fun t => (t.ph, t.r, t.out, lastSeen t)) =
    some (.idle, 0x0D17AE#24, [0x54#8, 0x44#8], some (.response 0x00#8 [0x54#8, 0x44#8])) := by decide

/-- The 32nd rejection of the row 0x2180FD, and the escape after it. -/
theorem test_phase_eOvf :
    (nextOf (step { phaseAt .eOvf 0x6411FB#24 with mask := 0xE7#8, fails := 32#6, pn := 0xF#4 })).map
      (fun t => (t.ph, t.r, t.mask, t.fails, t.out)) =
    some (.eSrch, 0xD66411#24, 0xDF#8, 0#6, [0x18#8]) := by decide

theorem test_phase_dMask : (nextOf (step { phaseAt .dMask 0xE15AAA#24 with cw := 0x44#8, hl := true, nb := 4#4 })).map
    (fun t => (t.ph, t.r, t.mask, t.fails, t.cw)) = some (.dSkip, 0x7AE15A#24, 0x55#8, 2#6, 0x11#8) := by decide

theorem test_phase_dSkip : (nextOf (step { phaseAt .dSkip 0x17AE15#24 with fails := 1#6, cw := 0x11#8 })).map
    (fun t => (t.ph, t.r, t.fails)) = some (.dKeep, 0xD17AE1#24, 0#6) := by decide

theorem test_phase_dKeep_high : (nextOf (step { phaseAt .dKeep 0x15AAAA#24 with cw := 0x01#8 })).map
    (fun t => (t.ph, t.r, t.hl, t.nb, t.out)) = some (.idle, 0xE15AAA#24, true, 4#4, []) := by decide

theorem test_phase_dKeep_low : (nextOf (step { phaseAt .dKeep 0xD17AE1#24 with cw := 0x11#8, hl := true, nb := 4#4 })).map
    (fun t => (t.ph, t.r, t.hl, t.nb, t.out)) = some (.idle, 0x0D17AE#24, false, 4#4, [0x41#8]) := by decide

/-- `STATUS` in the states of 95_test_vectors.md 2.6. -/
theorem test_status : (statusByte State.reset, statusByte (seededAt 1#24),
    statusByte { seededAt 1#24 with faulted := true, cause := 1#2 },
    statusByte { State.reset with faulted := true, cause := 2#2 },
    statusByte { seededAt 1#24 with faulted := true, cause := 3#2 }, statusByte (phaseAt .eSrch 1#24)) =
    (0x00#8, 0x01#8, 0x0D#8, 0x14#8, 0x1D#8, 0x21#8) := by decide

/-- A command placed in the state after reset is the next step's. -/
theorem test_placed_command : (nextOf (step (State.reset.withFetchWord 72 0x10000000000AAAAAA))).map
    (fun t => (t.r, t.seeded, t.port)) = some (0xAAAAAA#24, true, []) := by decide

/-- A codeword placed in the state after reset is the next step's. -/
theorem test_placed_codeword : (nextOf (step (State.reset.withFetchWord 8 0xFC))).map
    (fun t => (t.cw, t.fails, t.ph)) = some (0xFC#8, 31#6, .dSkip) := by decide

/-- Program P4's point: `INIT` is ignored while `FAULT = 1`. -/
theorem test_faulted_ignores_init :
    (nextOf (exec (.init 1#64) { State.reset with faulted := true, cause := 2#2, finfo := 0x02#8 })).map
      (fun t => (t.r, t.seeded, t.cause, t.finfo)) = some (0#24, false, 2#2, 0x02#8) := by decide

/-! ## Witnesses: for each statement with hypotheses, states and operands that meet them, clause by clause -/

theorem witness_StepRunsTheIssuedCommand :
    ({ State.reset with port := [.issue 0x20000000000000000#68, .reset] } : State).port =
      .issue 0x20000000000000000#68 :: [.reset] := by decide

theorem witness_StepRunsTheUnmaskedCodeword :
    (phaseAt .dMask 5#24).ph = .dMask ∧ (phaseAt .dMask 5#24).port = [] ∧
    ({ phaseAt .dMask 5#24 with port := [.wait] } : State).port = .wait :: [] := by decide

theorem witness_DecoderRejectsByName :
    (8 = 8 ∧ 255 < 2 ^ 8) ∧ (8 = 8 ∧ 2 ^ 8 ≤ 256) ∧ ((68 = 68 ∨ 68 = 72) ∧ 2 ^ 68 - 1 < 2 ^ 68) ∧
    ((72 = 68 ∨ 72 = 72) ∧ 2 ^ 68 ≤ 2 ^ 68) ∧ (16 ≠ 8 ∧ 16 ≠ 68 ∧ 16 ≠ 72) := by decide

theorem witness_DecodeUndoesEncode :
    WellFormed (.cwBad7 30#5) = true ∧ WellFormed (.init 0xFFFFFFFFFFFFFFFF#64) = true := by decide

/-- A command word of the first, the sixth and the last code. -/
theorem witness_CommandCodes :
    (0x0FFFFFFFFFFFFFFFF#68 : CmdWord).extractLsb' 64 4 = 0x0#4 ∧
    (0x500000000000000F1#68 : CmdWord).extractLsb' 64 4 = 0x5#4 ∧
    (0xF0000000000000000#68 : CmdWord).extractLsb' 64 4 = 0xF#4 := by decide

/-- Codewords at both ends of the classes: 0x00, 0xFC, 0xFE. -/
theorem witness_CodewordClasses :
    ((0x00#8 : Byte) ≠ 0xFF#8 ∧ (0x00#8 : Byte).extractLsb' 0 3 = 0#3) ∧
    ((0xFC#8 : Byte) ≠ 0xFF#8 ∧ (0xFC#8 : Byte).extractLsb' 0 3 = 4#3) ∧
    ((0xFE#8 : Byte) ≠ 0xFF#8 ∧ (0xFE#8 : Byte).extractLsb' 0 3 = 6#3) := by decide

theorem witness_UntakenBitsAreIgnored :
    let w : CmdWord := 0x60000000123456741#68
    let v : CmdWord := 0x60000000000000041#68
    w ≠ v ∧ w.extractLsb' 64 4 = v.extractLsb' 64 4 ∧ w.extractLsb' 64 4 = 0x6#4 ∧
    w.extractLsb' 0 8 = v.extractLsb' 0 8 := by decide

theorem witness_UntakenBitsAreIgnored_encn :
    let w : CmdWord := 0x500000000000000F1#68
    let v : CmdWord := 0x50000000000000001#68
    w ≠ v ∧ w.extractLsb' 64 4 = v.extractLsb' 64 4 ∧ w.extractLsb' 64 4 = 0x5#4 ∧
    w.extractLsb' 0 4 = v.extractLsb' 0 4 := by decide

theorem witness_OutputBitsAreSeedThenFeedback : (1 ≤ 1 ∧ 1 ≤ 23) ∧ (1 ≤ 23 ∧ 23 ≤ 23) ∧ 24 ≤ 24 := by decide

theorem witness_GeneratorStepIsAPermutation :
    genNext .hardware 0x000001#24 = genNext .hardware 0x000001#24 ∧ (0x000001#24 : GenReg) ≠ 0#24 := by decide

/-- For `MatchTableContents` and `MatchTablesAreConsistent`. -/
theorem witness_MatchTables : tabValid 0x8#4 = true ∧ tabValid 0x3#4 = false ∧ (4#3 : DiscCode).toNat ≤ 4 ∧
    tabValid (0xF#4 ^^^ 0x7#4) = true := by decide

/-- For `NopCommand`, `InitCommand` and `DrstCommand`, and for the clauses of `StepCommandResult`, `NibbleCommandResult`,
`MaskCommandResult` and `EncodeCommandsStart` on a faulted or an unseeded block. -/
theorem witness_IdleCommands : State.reset.ph = .idle ∧ State.reset.faulted = false ∧ State.reset.seeded = false ∧
    ({ State.reset with faulted := true, cause := 1#2 } : State).faulted = true := by decide

/-- For `StepCommandResult`, `NibbleCommandResult`, `MaskCommandResult`, `EncodeCommandsStart` and `DecodeCommandStarts`: a
block on which `STEP`, `NIBBLE`, `MASK`, `ENCN`, `ENCB` and `DECB` complete. -/
theorem witness_ReadyToDraw : ReadyToDraw (seededAt 0xAAAAAA#24) ∧ (seededAt 0xAAAAAA#24).port = [] := by decide

theorem witness_ReservedCommandsAreIllegal :
    Ready State.reset ∧ Ready (seededAt 1#24) ∧
    ((.reserved9, 0x9#4) : Instr × OpCode) ∈ [(Instr.reserved9, (0x9#4 : OpCode)), (.reservedA, 0xA#4),
      (.reservedB, 0xB#4), (.reservedC, 0xC#4), (.reservedD, 0xD#4), (.reservedE, 0xE#4), (.reservedF, 0xF#4)] ∧
    ((.reservedF, 0xF#4) : Instr × OpCode) ∈ [(Instr.reserved9, (0x9#4 : OpCode)), (.reservedA, 0xA#4),
      (.reservedB, 0xB#4), (.reservedC, 0xC#4), (.reservedD, 0xD#4), (.reservedE, 0xE#4), (.reservedF, 0xF#4)] := by
  decide

theorem witness_UnseededDrawRaisesNotSeeded : Ready State.reset ∧ State.reset.seeded = false ∧
    ((.decb 0x54#8, 0x07#8) : Instr × Byte) ∈ [(Instr.step, (0x02#8 : Byte)), (.nibble, 0x03#8), (.mask, 0x04#8),
      (.encn 4#4, 0x05#8), (.encb 0x41#8, 0x06#8), (.decb 0x54#8, 0x07#8)] := by decide

theorem witness_FaultedBlockIgnoresEverything :
    let s : State := { State.reset with faulted := true, cause := 3#2, finfo := 0x09#8, port := [.wait] }
    s.ph = .idle ∧ s.faulted = true ∧ (Instr.init 1#64).isCommand = true ∧ s.port.head? ≠ some .reset ∧
    (nextOf (step s)).isSome = true := by decide

theorem witness_FaultPriority :
    State.reset.ph = .idle ∧ State.reset.faulted = false ∧ State.reset.seeded = false ∧
    (Instr.reserved9.opCode = some 0x9#4 ∧ 9 ≤ (0x9#4 : OpCode).toNat) ∧
    (Instr.step.opCode = some 0x2#4 ∧ 2 ≤ (0x2#4 : OpCode).toNat) ∧
    ((Instr.decb 0#8).opCode = some 0x7#4 ∧ (0x7#4 : OpCode).toNat ≤ 7) ∧
    ((Instr.init 0#64).opCode = some 0x1#4 ∧ (0x1#4 : OpCode).toNat ≤ 1) ∧
    (Instr.drst.opCode = some 0x8#4 ∧ (0x8#4 : OpCode).toNat = 8) ∧ (seededAt 1#24).seeded = true ∧
    (nextOf (step { phaseAt .dMask 0xAAAAAA#24 with cw := 0x50#8 })).map (fun t => (t.faulted, t.cause, t.r)) =
      some (true, 1#2, 0x15AAAA#24) := by decide

theorem witness_BusyBlockRefusesCommands :
    (phaseAt .eSrch 1#24).ph ≠ .idle ∧ Instr.nop.isCommand = true ∧
    refusalOf (exec .nop (phaseAt .eSrch 1#24)) = some .commandWhileBusy := by decide

/-- For `EscapeCodewordStarts`, `MatchCodewordsStart` and `MalformedCodewordsFault`. -/
theorem witness_Codewords : (phaseAt .dMask 1#24).ph = .dMask ∧
    ((.cwMatch4 31#5, 4#3) : Instr × DiscCode) ∈ [(Instr.cwMatch0 31#5, (0#3 : DiscCode)), (.cwMatch1 31#5, 1#3),
      (.cwMatch2 31#5, 2#3), (.cwMatch3 31#5, 3#3), (.cwMatch4 31#5, 4#3)] ∧
    ((.cwBad6 31#5, 6#3) : Instr × DiscCode) ∈ [(Instr.cwBad5 31#5, (5#3 : DiscCode)), (.cwBad6 31#5, 6#3),
      (.cwBad7 31#5, 7#3)] ∧ WellFormed (.cwBad6 31#5) = true ∧ WellFormed (.cwBad7 30#5) = true ∧
    ((.cwBad7 30#5, 7#3) : Instr × DiscCode) ∈ [(Instr.cwBad5 30#5, (5#3 : DiscCode)), (.cwBad6 30#5, 6#3),
      (.cwBad7 30#5, 7#3)] := by decide

theorem witness_StopsTheModelChose : State.reset.ph ≠ .dMask ∧ Instr.cwEsc.isCommand = false ∧
    (let u : State := { phaseAt .dKeep 1#24 with cw := 0x05#8 };
      u.port = [] ∧ u.ph = .dKeep ∧ 5 ≤ (u.cw.extractLsb' 0 3).toNat) ∧
    (phaseAt .eSrch 1#24).port = [] ∧ (phaseAt .eSrch 1#24).ph = .eSrch := by decide

theorem witness_MaskDrawingPhases : (phaseAt .eMask 1#24).port = [] ∧ (phaseAt .eMask 1#24).ph = .eMask ∧
    (phaseAt .eOvf 1#24).port = [] ∧ (phaseAt .eOvf 1#24).ph = .eOvf := by decide

/-- From 0x15AAAA the nibble drawn is 0x5: 0x4 matches it, 0x2 does not. -/
theorem witness_SearchPhase :
    let s : State := { phaseAt .eSrch 0x15AAAA#24 with pn := 0x4#4 }
    let u : State := { phaseAt .eSrch 0x15AAAA#24 with pn := 0x2#4, fails := 31#6 }
    (s.port = [] ∧ s.ph = .eSrch ∧ tabDisc (s.pn ^^^ (genNibble s.config s.r).2) = some 1#3 ∧ s.lp = false) ∧
    ({ s with lp := true } : State).lp = true ∧
    (u.port = [] ∧ u.ph = .eSrch ∧ tabValid (u.pn ^^^ (genNibble u.config u.r).2) = false ∧ u.fails = 31#6) ∧
    ({ u with fails := 30#6 } : State).fails ≠ 31#6 := by decide

/-- From 0xAAAAAA the mask drawn is 0x55: 0xAA unmasks to 0xFF, 0xAB to 0xFE, 0x51 to 0x04, 0x5D to 0x08. -/
theorem witness_UnmaskingPhase :
    let m := (genMask .hardware 0xAAAAAA#24).2
    (phaseAt .dMask 0xAAAAAA#24).port = [] ∧ 0xAA#8 ^^^ m = 0xFF#8 ∧
    (0xAB#8 ^^^ m ≠ 0xFF#8 ∧ 5 ≤ ((0xAB#8 ^^^ m).extractLsb' 0 3).toNat) ∧
    (((0x51#8 ^^^ m).extractLsb' 0 3).toNat ≤ 4 ∧ (0x51#8 ^^^ m).extractLsb' 3 5 = 0#5) ∧
    (((0x5D#8 ^^^ m).extractLsb' 0 3).toNat ≤ 4 ∧ (0x5D#8 ^^^ m).extractLsb' 3 5 ≠ 0#5) := by decide

theorem witness_DiscardingPhases :
    let s : State := { phaseAt .dEsc 1#24 with fails := 32#6 }
    let u : State := { phaseAt .dSkip 1#24 with fails := 1#6 }
    (s.port = [] ∧ s.ph = .dEsc ∧ s.fails ≠ 1#6 ∧ ({ s with fails := 1#6 } : State).fails = 1#6) ∧
    (u.port = [] ∧ u.ph = .dSkip ∧ u.fails = 1#6 ∧ ({ u with fails := 31#6 } : State).fails ≠ 1#6) ∧
    (nextOf (step { phaseAt .dMask 0xAAAAAA#24 with cw := 0xAA#8 })).map (fun t => (t.ph, t.fails)) =
      some (.dEsc, 32#6) := by decide

theorem witness_KeepingPhase :
    let s : State := { phaseAt .dKeep 1#24 with cw := 0xFC#8 }
    let u : State := { phaseAt .dKeep 1#24 with cw := 0x05#8 }
    s.port = [] ∧ s.ph = .dKeep ∧ tabInv (s.cw.extractLsb' 0 3) = some 0x8#4 ∧ s.hl = false ∧
    ({ s with hl := true } : State).hl = true ∧ u.port = [] ∧ u.ph = .dKeep ∧ 5 ≤ (u.cw.extractLsb' 0 3).toNat := by decide

/-- For `ResetInputInAnyPhase`, `StatusLayout`, `HostReadsHaveNoSideEffect` and the last clause of
`FaultedBlockIgnoresEverything`. -/
theorem witness_HostActions :
    ({ phaseAt .eSrch 1#24 with port := [.reset] } : State).port = .reset :: [] ∧
    ({ phaseAt .eSrch 1#24 with port := [.readStatus] } : State).port = .readStatus :: [] ∧
    ({ phaseAt .eSrch 1#24 with port := [.readFinfo] } : State).port = .readFinfo :: [] ∧
    ({ phaseAt .eSrch 1#24 with port := [.takeOut] } : State).port = .takeOut :: [] := by decide

theorem witness_IdleBlockKeepsItsState : State.reset.ph = .idle ∧ State.reset.port = [] ∧
    ({ State.reset with port := [.awaitIdle] } : State).port = .awaitIdle :: [] := by decide

/-- Searching for 0x2 at the last count before the escape, the next nibble being 0x5. -/
def lastTry : State := { phaseAt .eSrch 0x15AAAA#24 with pn := 0x2#4, mask := 0x55#8, fails := 31#6 }

/-- About to escape (95_test_vectors.md 2.7). -/
def aboutToEscape : State := { phaseAt .eOvf 0x6411FB#24 with fails := 32#6, mask := 0xE7#8 }

/-- A block that has faulted. -/
def faultedBlock : State := { State.reset with faulted := true, cause := 1#2, finfo := 0xFE#8 }

/-- The invariant holds with its conditions at their boundaries: FAILS 31 searching, FAILS 32 before the escape, a fault
taken; and the first two of these states step to a next one. -/
theorem witness_InvariantKept :
    MachineInv lastTry ∧ MachineInv aboutToEscape ∧ MachineInv faultedBlock ∧
    (nextOf (step lastTry)).map (fun t => (t.ph, t.fails)) = some (.eOvf, 32#6) ∧
    (nextOf (step aboutToEscape)).map (fun t => (t.ph, t.fails)) = some (.eSrch, 0#6) := by
  refine ⟨⟨?_, ?_, ?_, ?_, ?_⟩, ⟨?_, ?_, ?_, ?_, ?_⟩, ⟨?_, ?_, ?_, ?_, ?_⟩, ?_, ?_⟩ <;> decide

/-- The other case of `StepNeverStops`: a command issued to a busy block. -/
theorem witness_StepNeverStops :
    MachineInv { lastTry with port := [.issue 0#68] } ∧
    refusalOf (step { lastTry with port := [.issue 0#68] }) = some .commandWhileBusy := by
  refine ⟨⟨?_, ?_, ?_, ?_, ?_⟩, ?_⟩ <;> decide

/-- For `OutputOnlyGrows`, `RegisterWriters` and `FlagWriters`: steps that answer a next state, with the changes these speak
of. -/
theorem witness_Writers :
    (nextOf (step { seededAt 1#24 with port := [.issue 0x100000000000000FF#68] })).map (fun t => (t.r, t.seeded)) =
      some (0xFF#24, true) ∧
    (nextOf (step { seededAt 1#24 with port := [.reset] })).map (fun t => t.seeded) = some false ∧
    (nextOf (step { State.reset with port := [.issue 0x100000000000000FF#68] })).map (fun t => t.seeded) = some true ∧
    (nextOf (step { State.reset with faulted := true, cause := 2#2, port := [.reset] })).map (fun t => t.faulted) =
      some false ∧
    (nextOf (step { phaseAt .dKeep 1#24 with cw := 0x01#8 })).map (fun t => t.hl) = some true := by decide

/-- A match byte (with FAILS 31) and an escape byte pushed, in states that meet the invariant. -/
theorem witness_EncoderProducesOnlyMatchAndEscape :
    MachineInv { lastTry with pn := 0x4#4 } ∧
    (nextOf (step { lastTry with pn := 0x4#4 })).map (fun t => t.out) = some ([] ++ [0xF9#8 ^^^ 0x55#8]) ∧
    MachineInv aboutToEscape ∧ (nextOf (step aboutToEscape)).map (fun t => t.out) = some ([] ++ [0x18#8]) := by
  refine ⟨⟨?_, ?_, ?_, ?_, ?_⟩, ?_, ⟨?_, ?_, ?_, ?_, ?_⟩, ?_⟩ <;> decide

/-- Two different states that are the same to the host. -/
theorem witness_ValuelessRegistersAreUnobservable :
    SameToHost State.reset { State.reset with r := 0xABCDEF#24, nb := 7#4, mask := 1#8, cw := 2#8 } ∧
    State.reset ≠ { State.reset with r := 0xABCDEF#24, nb := 7#4, mask := 1#8, cw := 2#8 } := by
  refine ⟨⟨rfl, rfl, rfl, rfl, rfl, rfl, rfl, rfl, rfl, rfl, rfl, ?_, ?_, ?_, ?_, ?_, ?_, ?_, ?_⟩, ?_⟩ <;> decide

/-- `ENCN 0x4` and `ENCB 0x41` from 0xAAAAAA, by the big-step rules (95_test_vectors.md 2.4). -/
theorem witness_EncodeCommandsMeetBigStep :
    ReadyToDraw (seededAt 0xAAAAAA#24) ∧ (seededAt 0xAAAAAA#24).port = [] ∧
    encodeNibble .hardware 1 0xAAAAAA#24 0x4#4 = some (0xE15AAA#24, [0x54#8]) ∧
    encodeByte .hardware 3 0xAAAAAA#24 0x41#8 = some (0x0D17AE#24, [0x54#8, 0x44#8]) := by decide

/-- An escape on the way, also for the encode clause of `ConsumptionPattern` (95_test_vectors.md 2.4, row 0xF61498). -/
theorem witness_EncodeCommandsMeetBigStep_escape :
    encodeNibble .hardware 33 0xF61498#24 0xC#4 = some (0x1784BB#24, [0x3B#8, 0x3B#8]) := by decide

/-- From the zero register the search for 0x3 never ends, whatever the fuel (70_reset_and_hazards.md R137). -/
theorem encodeSearch_zero (fuel : Nat) : ∀ (m : Byte) (fails : BitVec 6),
    encodeSearch .hardware fuel 0#24 0x3#4 m fails = none := by
  have hn : genNibble .hardware 0#24 = (0#24, 0#4) := by decide
  have hm : (genMask .hardware 0#24).1 = 0#24 := by decide
  have hv : tabValid 0x3#4 = false := by decide
  induction fuel with
  | zero => intros; rfl
  | succ n ih => intro m fails; simp [encodeSearch, hn, hm, hv, ih]

theorem witness_HungEncodeNeverReturns :
    ReadyToDraw (seededAt 0#24) ∧ (seededAt 0#24).port = [] ∧
    (∀ fuel, encodeNibble .hardware fuel 0#24 0x3#4 = none) ∧
    (∀ fuel, encodeByte .hardware fuel 0#24 0x30#8 = none) := by
  have hm : (genMask .hardware 0#24).1 = 0#24 := by decide
  have hn : ∀ fuel, encodeNibble .hardware fuel 0#24 0x3#4 = none := fun fuel => by
    simp [encodeNibble, hm, encodeSearch_zero]
  have hh : highNibble 0x30#8 = 0x3#4 := by decide
  exact ⟨by decide, rfl, hn, fun fuel => by simp [encodeByte, hh, hn]⟩

/-- `DECB` from 0xAAAAAA: 0x54 recovers a nibble, 0x50 is malformed (95_test_vectors.md 2.5). -/
theorem witness_DecodeCommandMeetsBigStep :
    ReadyToDraw (seededAt 0xAAAAAA#24) ∧ (seededAt 0xAAAAAA#24).port = [] ∧
    decodeByteBig .hardware ⟨0xAAAAAA#24, false, 0#4, [], none⟩ 0x54#8 = ⟨0xE15AAA#24, true, 4#4, [], none⟩ ∧
    decodeByteBig .hardware ⟨0xAAAAAA#24, false, 0#4, [], none⟩ 0x50#8 =
      ⟨0x15AAAA#24, false, 0#4, [], some 0x05#8⟩ := by decide

/-- The three classes a ciphertext byte falls in from 0xAAAAAA. -/
theorem witness_ConsumptionPattern :
    0xAA#8 ^^^ (genMask .hardware 0xAAAAAA#24).2 = 0xFF#8 ∧
    (0xA8#8 ^^^ (genMask .hardware 0xAAAAAA#24).2 ≠ 0xFF#8 ∧
      5 ≤ ((0xA8#8 ^^^ (genMask .hardware 0xAAAAAA#24).2).extractLsb' 0 3).toNat) ∧
    ((0xA9#8 ^^^ (genMask .hardware 0xAAAAAA#24).2).extractLsb' 0 3).toNat ≤ 4 := by decide

/-- For `DecryptionUndoesEncryption` and `EncryptionRunMeetsBigStep`: program P1's encryption and P2's decryption, by the
big-step rules. -/
theorem witness_BigStepRuns :
    encodeBytes .hardware 3 0xAAAAAA#24 [0x41#8] = some (0x0D17AE#24, [0x54#8, 0x44#8]) ∧
    (0xAAAAAA#64 : Arg).extractLsb' 0 24 = 0xAAAAAA#24 ∧
    decodeBytes .hardware 0xAAAAAA#24 0#4 [0x54#8, 0x44#8] = ⟨0x0D17AE#24, false, 4#4, [0x41#8], none⟩ := by decide

/-- An encryption run from reset that is over after nine steps. -/
theorem witness_RunsRoundTrip :
    ∃ t, Reaches 9 { State.resetWith .hardware with port := runEncrypt 0xAAAAAA#64 [0x41#8] } t ∧ t.port = [] :=
  ⟨_, rfl, rfl⟩

theorem witness_ZeroSeedHangs :
    ReadyToDraw (seededAt 0#24) ∧ (seededAt 0#24).port = [] ∧ (seededAt 0#24).r = 0#24 ∧
    tabValid 0x3#4 = false ∧ tabDisc 0x8#4 = some 4#3 := by decide

end Sys2Proof.Tests
end

section
/-! Two states that are the same to the host (`SameToHost`) answer every step alike. One lemma per operation of the
state says that it keeps the relation; one per gate says that its answers are the same when its body's are; the step is
assembled from them along `step`, `hostAct`, `takeTransition` and `exec`. -/

namespace Sys2Proof.Machine

section SameToHost

variable {s t : State}

/-! ### The operations keep the relation -/

theorem SameToHost.setPort (h : SameToHost s t) (p : List HostAction) :
    SameToHost { s with port := p } { t with port := p } :=
  { h with port := rfl }

theorem SameToHost.observe (h : SameToHost s t) (o : Observation) : SameToHost (observe o s) (observe o t) :=
  { h with seen := by simp [h.seen] }

theorem SameToHost.respond (h : SameToHost s t) (res : Byte) (bytes : List Byte) :
    SameToHost (respond res bytes s) (respond res bytes t) :=
  h.observe _

theorem SameToHost.setR (h : SameToHost s t) (r : GenReg) : SameToHost (setR r s) (setR r t) :=
  { h with r := fun _ => rfl }

/-- Where `R` holds a value, the same nibble is drawn. -/
theorem SameToHost.drawNibble (h : SameToHost s t) (hr : s.r = t.r) :
    SameToHost (drawNibble s).1 (drawNibble t).1 ∧ (drawNibble s).2 = (drawNibble t).2 := by
  simp only [drawNibble_fst, drawNibble_snd, h.config, hr, and_true]
  exact h.setR _

theorem SameToHost.pushByte (h : SameToHost s t) (b : Byte) : SameToHost (pushByte b s) (pushByte b t) :=
  { h with out := by simp [h.out], rspOut := by simp [h.rspOut] }

/-- The idle block reads no working register. -/
theorem SameToHost.enterFault (h : SameToHost s t) (f : BlockFault) : SameToHost (enterFault f s) (enterFault f t) :=
  { h with
    faulted := rfl, cause := rfl, finfo := rfl, ph := rfl
    r := fun hr => h.r (hr.imp_right (absurd rfl))
    mask := by simp, fails := by simp, pn := by simp, lp := by simp, ln := by simp, cw := by simp }

theorem SameToHost.raiseFault (h : SameToHost s t) (f : BlockFault) : SameToHost (raiseFault f s) (raiseFault f t) :=
  (h.enterFault f).respond _ _

theorem SameToHost.finishCommand (h : SameToHost s t) : SameToHost (finishCommand s) (finishCommand t) :=
  { h with
    rspOut := rfl, seen := by simp [h.seen, h.rspOut], ph := rfl
    r := fun hr => h.r (hr.imp_right (absurd rfl))
    mask := by simp, fails := by simp, pn := by simp, lp := by simp, ln := by simp, cw := by simp }

/-- Reset forgets every register; only what the host sees and the configuration are left to compare. -/
theorem SameToHost.resetInput (h : SameToHost s t) : SameToHost (resetInput s) (resetInput t) := by
  constructor <;> simp [h.config, h.port, h.out, h.seen]

theorem SameToHost.seed (h : SameToHost s t) (key : Arg) :
    SameToHost { s with r := seedOfKey key, seeded := true, hl := false }
      { t with r := seedOfKey key, seeded := true, hl := false } :=
  { h with hl := rfl, seeded := rfl, r := fun _ => rfl, nb := by simp }

theorem SameToHost.clearFraming (h : SameToHost s t) : SameToHost { s with hl := false } { t with hl := false } :=
  { h with hl := rfl, nb := by simp }

/-- An encode command writes all that its phases read, but for `LN` where there is no low nibble to come. -/
theorem SameToHost.startEncode (h : SameToHost s t) (hr : s.r = t.r) (p : Nibble) {l l' : Nibble} {b : Bool}
    (hl : b = true → l = l') : SameToHost (startEncode p l b s) (startEncode p l' b t) :=
  { h with
    rspOut := rfl, ph := rfl, r := fun _ => hr, pn := fun _ => rfl, lp := fun _ => rfl, ln := fun _ => hl
    mask := by simp, fails := by simp, cw := by simp }

theorem SameToHost.startDecode (h : SameToHost s t) (hr : s.r = t.r) (c : Byte) :
    SameToHost { s with cw := c, ph := .dMask, rspOut := [] } { t with cw := c, ph := .dMask, rspOut := [] } :=
  { h with
    rspOut := rfl, ph := rfl, r := fun _ => hr, cw := fun _ => rfl
    mask := by simp, fails := by simp, pn := by simp, lp := by simp, ln := by simp }

/-- A new mask attempt writes `MASK` and `FAILS`, and reads on from `PN`, `LP` and `LN`. -/
theorem SameToHost.beginSearch (h : SameToHost s t) (hr : s.r = t.r) (he : InEncode s) :
    SameToHost (beginSearch s) (beginSearch t) :=
  { h with
    ph := rfl, r := fun _ => by simp [h.config, hr], mask := fun _ => by simp [h.config, hr], fails := fun _ => rfl
    pn := fun _ => h.pn he, lp := fun _ => h.lp he, ln := fun _ => h.ln he
    cw := by simp }

/-- The low nibble that comes next is read only where `LP` says there is one. -/
theorem SameToHost.afterMatch (h : SameToHost s t) (hp : s.ph = .eSrch) : SameToHost (afterMatch s) (afterMatch t) := by
  have he : InEncode s := .inr (.inl hp)
  unfold Machine.afterMatch
  rw [← h.lp he]
  split
  · rename_i hlp
    exact { h with
      ph := rfl, r := fun _ => h.r (.inr (by simp [hp])), pn := fun _ => h.ln he hlp, lp := fun _ => rfl
      ln := by simp, mask := by simp, fails := by simp, cw := by simp }
  · exact h.finishCommand

theorem SameToHost.afterReject (h : SameToHost s t) (hp : s.ph = .eSrch) :
    SameToHost (afterReject s) (afterReject t) := by
  have he : InEncode s := .inr (.inl hp)
  have hf : s.fails = t.fails := h.fails (.inl hp)
  unfold Machine.afterReject
  rw [← hf]
  split
  · exact { h with
      ph := rfl, r := fun _ => h.r (.inr (by simp [hp])), mask := fun _ => h.mask (.inl hp)
      pn := fun _ => h.pn he, lp := fun _ => h.lp he, ln := fun _ => h.ln he
      fails := by simp, cw := by simp }
  · exact { h with fails := fun _ => rfl }

/-- `D_MASK` unmasks the same byte, and the mask it leaves behind is read by no phase of the decode path. -/
theorem SameToHost.unmaskCodeword (h : SameToHost s t) (hp : s.ph = .dMask) :
    SameToHost (unmaskCodeword s).1 (unmaskCodeword t).1 ∧ (unmaskCodeword s).2 = (unmaskCodeword t).2 := by
  have hr : s.r = t.r := h.r (.inr (by simp [hp]))
  have hc : s.cw = t.cw := h.cw (.inl hp)
  constructor
  · exact { h with
      r := fun _ => by simp [Machine.unmaskCodeword, h.config, hr]
      mask := by simp [Machine.unmaskCodeword, hp] }
  · simp [Machine.unmaskCodeword, h.config, hr, hc]

theorem SameToHost.startEscape (h : SameToHost s t) (hp : s.ph = .dMask) :
    SameToHost { s with cw := escCodeword, fails := maxFail, ph := .dEsc }
      { t with cw := escCodeword, fails := maxFail, ph := .dEsc } :=
  { h with
    ph := rfl, r := fun _ => h.r (.inr (by simp [hp])), fails := fun _ => rfl
    mask := by simp, pn := by simp, lp := by simp, ln := by simp, cw := by simp }

theorem SameToHost.startMatch (h : SameToHost s t) (hp : s.ph = .dMask) (f : BitVec 5) (d : DiscCode) :
    SameToHost (startMatch f d s) (startMatch f d t) := by
  have hr : s.r = t.r := h.r (.inr (by simp [hp]))
  unfold Machine.startMatch
  split <;> exact { h with
    ph := rfl, r := fun _ => hr, fails := fun _ => rfl, cw := fun _ => rfl
    mask := by simp, pn := by simp, lp := by simp, ln := by simp }

theorem SameToHost.setCw (h : SameToHost s t) (c : Byte) : SameToHost { s with cw := c } { t with cw := c } :=
  { h with cw := fun _ => rfl }

theorem SameToHost.malformed (h : SameToHost s t) (f : BitVec 5) (d : DiscCode) :
    SameToHost (malformed f d s) (malformed f d t) :=
  (h.setCw _).raiseFault _

theorem SameToHost.discardOne (h : SameToHost s t) (hp : s.ph = .dEsc ∨ s.ph = .dSkip) :
    SameToHost (discardOne s) (discardOne t) := by
  have hr : s.r = t.r := h.r (.inr (by rcases hp with hp | hp <;> simp [hp]))
  exact { h with
    r := fun _ => by simp [h.config, hr]
    fails := fun _ => by simp [h.fails (.inr hp)] }

theorem SameToHost.startKeep (h : SameToHost s t) (hp : s.ph = .dSkip) :
    SameToHost { s with ph := .dKeep } { t with ph := .dKeep } :=
  { h with
    ph := rfl, r := fun _ => h.r (.inr (by simp [hp])), cw := fun _ => h.cw (.inr (.inl hp))
    mask := by simp, fails := by simp, pn := by simp, lp := by simp, ln := by simp }

/-- `NB` is read only where `HL` says it holds a nibble. -/
theorem SameToHost.frameNibble (h : SameToHost s t) (p : Nibble) : SameToHost (frameNibble p s) (frameNibble p t) := by
  unfold Machine.frameNibble
  rw [← h.hl]
  split
  · rename_i hhl
    rw [← h.nb hhl]
    exact (h.pushByte _).clearFraming
  · exact { h with hl := rfl, nb := fun _ => rfl }

theorem SameToHost.statusByte (h : SameToHost s t) : statusByte s = statusByte t := by
  simp [Machine.statusByte, busy, h.ph, h.cause, h.faulted, h.hl, h.seeded]

/-! ### The gates, the instructions, the phases and the step answer alike -/

theorem SameToHost.onCommand {body : State → Result} (h : SameToHost s t)
    (hb : s.ph = .idle → SameAnswer (body s) (body t)) : SameAnswer (onCommand body s) (onCommand body t) := by
  unfold Machine.onCommand
  rw [← h.ph, ← h.faulted]
  split
  · rfl
  · rename_i hp
    split
    · exact h.respond _ _
    · exact hb (not_not.mp hp)

/-- A seeded block holds a value in `R`, so a drawing command's body may read it. -/
theorem SameToHost.onSeeded {op : OpCode} {body : State → Result} (h : SameToHost s t)
    (hb : s.r = t.r → SameAnswer (body s) (body t)) : SameAnswer (onSeeded op body s) (onSeeded op body t) := by
  unfold Machine.onSeeded
  rw [← h.seeded]
  split
  · rename_i hs; exact hb (h.r (.inl hs))
  · exact h.raiseFault _

theorem SameToHost.onCodeword {body : State → Result} (h : SameToHost s t)
    (hb : s.ph = .dMask → SameAnswer (body s) (body t)) : SameAnswer (onCodeword body s) (onCodeword body t) := by
  unfold Machine.onCodeword
  rw [← h.ph]
  split
  · rename_i hp; exact hb hp
  · rfl

/-- A command that draws and answers what it has drawn. -/
theorem SameToHost.onDraw {op : OpCode} (h : SameToHost s t) {res : State → Byte} {next : State → GenReg}
    (hres : s.r = t.r → res s = res t) (hnext : s.r = t.r → next s = next t) :
    SameAnswer
      (Machine.onCommand (Machine.onSeeded op fun s => .next (Machine.respond (res s) [] (Machine.setR (next s) s))) s)
      (Machine.onCommand (Machine.onSeeded op fun s => .next (Machine.respond (res s) [] (Machine.setR (next s) s))) t) := by
  refine h.onCommand fun _ => h.onSeeded fun hr => ?_
  rw [hres hr, hnext hr]
  exact (h.setR _).respond _ _

theorem SameToHost.exec (h : SameToHost s t) (i : Instr) : SameAnswer (exec i s) (exec i t) := by
  cases i
  all_goals simp only [Machine.exec, execNop, execInit, execStep, execNibble, execMask, execEncn, execEncb, execDecb,
    execDrst, execReserved9, execReservedA, execReservedB, execReservedC, execReservedD, execReservedE, execReservedF,
    execCwEsc, execCwMatch0, execCwMatch1, execCwMatch2, execCwMatch3, execCwMatch4, execCwBad5, execCwBad6, execCwBad7]
  case nop => exact h.onCommand fun _ => h.respond _ _
  case init key => exact h.onCommand fun _ => (h.seed key).respond _ _
  case step => exact h.onDraw (fun hr => by simp [h.config, hr]) (fun hr => by simp [h.config, hr, genStep])
  case nibble | mask => exact h.onDraw (fun hr => by simp [h.config, hr]) (fun hr => by simp [h.config, hr])
  case encn p => exact h.onCommand fun _ => h.onSeeded fun hr => h.startEncode hr p (by simp)
  case encb b => exact h.onCommand fun _ => h.onSeeded fun hr => h.startEncode hr _ fun _ => rfl
  case decb c => exact h.onCommand fun _ => h.onSeeded fun hr => h.startDecode hr c
  case drst => exact h.onCommand fun _ => h.clearFraming.respond _ _
  case reserved9 | reservedA | reservedB | reservedC | reservedD | reservedE | reservedF =>
    exact h.onCommand fun _ => h.raiseFault _
  case cwEsc => exact h.onCodeword fun hp => h.startEscape hp
  case cwMatch0 f | cwMatch1 f | cwMatch2 f | cwMatch3 f | cwMatch4 f =>
    exact h.onCodeword fun hp => h.startMatch hp f _
  case cwBad5 f | cwBad6 f | cwBad7 f => exact h.onCodeword fun _ => h.malformed f _

/-- `E_SRCH` draws the same nibble and tests it against the same `PN`. -/
theorem SameToHost.phaseESrch (h : SameToHost s t) (hp : s.ph = .eSrch) :
    SameAnswer (phaseESrch s) (phaseESrch t) := by
  obtain ⟨hd, hn⟩ := h.drawNibble (h.r (.inr (by simp [hp])))
  unfold Machine.phaseESrch
  rw [hn, h.pn (.inr (.inl hp)), h.fails (.inl hp), h.mask (.inl hp)]
  split
  · split
    · exact (hd.pushByte _).afterMatch hp
    · rfl
  · exact hd.afterReject hp

theorem SameToHost.phaseDMask (h : SameToHost s t) (hp : s.ph = .dMask) : SameAnswer (phaseDMask s) (phaseDMask t) := by
  obtain ⟨hu, hcw⟩ := h.unmaskCodeword hp
  unfold Machine.phaseDMask
  rw [hcw]
  exact hu.exec _

theorem SameToHost.phaseDEsc (h : SameToHost s t) (hp : s.ph = .dEsc) : SameAnswer (phaseDEsc s) (phaseDEsc t) := by
  have hd := h.discardOne (.inl hp)
  unfold Machine.phaseDEsc
  rw [← h.fails (.inr (.inl hp))]
  split
  · exact hd.finishCommand
  · exact hd

theorem SameToHost.phaseDSkip (h : SameToHost s t) (hp : s.ph = .dSkip) : SameAnswer (phaseDSkip s) (phaseDSkip t) := by
  have hd := h.discardOne (.inr hp)
  unfold Machine.phaseDSkip
  rw [← h.fails (.inr (.inr hp))]
  split
  · exact hd.startKeep hp
  · exact hd

theorem SameToHost.phaseDKeep (h : SameToHost s t) (hp : s.ph = .dKeep) : SameAnswer (phaseDKeep s) (phaseDKeep t) := by
  obtain ⟨hd, hn⟩ := h.drawNibble (h.r (.inr (by simp [hp])))
  unfold Machine.phaseDKeep
  rw [hn, h.cw (.inr (.inr hp))]
  split
  · exact (hd.frameNibble _).finishCommand
  · rfl

theorem SameToHost.takeTransition (h : SameToHost s t) : SameAnswer (takeTransition s) (takeTransition t) := by
  unfold Machine.takeTransition
  rw [← h.ph]
  have hbusy : s.ph ≠ .idle → s.r = t.r := fun hp => h.r (.inr hp)
  split <;> rename_i hp
  · exact h
  · exact h.beginSearch (hbusy (by simp [hp])) (.inl hp)
  · exact h.phaseESrch hp
  · unfold phaseEOvf
    rw [← h.mask (.inr hp)]
    exact (h.pushByte _).beginSearch (hbusy (by simp [hp])) (.inr (.inr hp))
  · exact h.phaseDMask hp
  · exact h.phaseDEsc hp
  · exact h.phaseDSkip hp
  · exact h.phaseDKeep hp

theorem SameToHost.hostAct (h : SameToHost s t) (a : HostAction) : SameAnswer (hostAct a s) (hostAct a t) := by
  cases a with
  | wait => exact h.takeTransition
  | awaitIdle =>
    simp only [Machine.hostAct, ← h.port]
    by_cases hp : s.ph = .idle
    · rw [if_pos hp, if_pos (h.ph ▸ hp)]
      exact h
    · rw [if_neg hp, if_neg (h.ph ▸ hp)]
      exact (h.setPort _).takeTransition
  | reset => exact h.resetInput
  | issue cmd => exact h.exec _
  | readStatus =>
    simp only [Machine.hostAct, ← h.statusByte]
    exact h.observe _
  | readFinfo =>
    simp only [Machine.hostAct, ← h.finfo]
    exact h.observe _
  | takeOut =>
    simp only [Machine.hostAct, ← h.out]
    exact h.observe _

theorem SameToHost.step (h : SameToHost s t) : SameAnswer (step s) (step t) := by
  cases hp : s.port with
  | nil =>
    rw [step_of_port_nil hp, step_of_port_nil (h.port ▸ hp)]
    exact h.takeTransition
  | cons a rest =>
    rw [step_of_port_cons hp, step_of_port_cons (h.port ▸ hp)]
    exact (h.setPort rest).hostAct a

end SameToHost

/-- Settles O51, by the lemmas above along the definition of `step`: no operation reads a register that the relation
leaves free. -/
theorem valuelessRegistersAreUnobservable : Obligations.ValuelessRegistersAreUnobservable :=
  fun _ _ h => h.step

end Sys2Proof.Machine
end

section
/-! What a step does to the registers that outlast a command: `OUT` and the host's record grow by at most one entry, and
`R`, the tap pair and the flags change by a few named events only. -/

namespace Sys2Proof.Machine

variable {s t u : State}

/-! ### What grows -/

/-- A list is as before or has one more entry at its end. -/
def GrowsByOne {α : Type} (l l' : List α) : Prop := l' = l ∨ ∃ x, l' = l ++ [x]

@[simp] theorem GrowsByOne.refl {α : Type} (l : List α) : GrowsByOne l l := .inl rfl
@[simp] theorem GrowsByOne.snoc {α : Type} (l : List α) (x : α) : GrowsByOne l (l ++ [x]) := .inr ⟨x, rfl⟩

@[simp] theorem afterMatch_out : (afterMatch s).out = s.out := by
  unfold afterMatch; split <;> rfl

theorem afterMatch_seen : GrowsByOne s.seen (afterMatch s).seen := by
  unfold afterMatch; split <;> simp

@[simp] theorem afterReject_out : (afterReject s).out = s.out := by
  unfold afterReject; split <;> rfl

@[simp] theorem afterReject_seen : (afterReject s).seen = s.seen := by
  unfold afterReject; split <;> rfl

@[simp] theorem startMatch_out (f : BitVec 5) (d : DiscCode) : (startMatch f d s).out = s.out := by
  unfold startMatch; split <;> rfl

@[simp] theorem startMatch_seen (f : BitVec 5) (d : DiscCode) : (startMatch f d s).seen = s.seen := by
  unfold startMatch; split <;> rfl

theorem frameNibble_out (p : Nibble) : GrowsByOne s.out (frameNibble p s).out := by
  unfold frameNibble; split <;> simp

@[simp] theorem frameNibble_seen (p : Nibble) : (frameNibble p s).seen = s.seen := by
  unfold frameNibble; split <;> rfl

/-- A byte is pushed by a match, by an escape and by a kept nibble that completes a byte; a move shows the host at most
one thing. -/
theorem Move.grows (h : Move s t) : GrowsByOne s.out t.out ∧ GrowsByOne s.seen t.seen := by
  cases h with
  | stays | resets | startsEncode | startsDecode | drawsFirstMask | findsEscape => exact ⟨.refl _, .refl _⟩
  | shows | answers | inits | clearsFraming | drawsBit | drawsNibble | drawsMask | lacksSeed | isIllegal
  | findsMalformed => exact ⟨.refl _, .snoc _ _⟩
  | matchesNibble => exact ⟨by simp, afterMatch_seen⟩
  | rejectsNibble => simp
  | escapes => exact ⟨.snoc _ _, .refl _⟩
  | findsMatch => simp [unmaskCodeword]
  | discardsEscaped => split <;> simp
  | discardsRejected => split <;> simp
  | keepsNibble => exact ⟨frameNibble_out _, by simp⟩

/-- Settles O47: a step is a move, and a move pushes at most one byte and shows the host at most one thing. -/
theorem outputOnlyGrows : Obligations.OutputOnlyGrows := by
  intro s t h
  obtain ⟨p, hm⟩ := step_next h
  exact hm.grows

/-! ### Who writes `R` and the flags -/

/-- The register is as before or has been stepped for one bit, one nibble or one mask (10_state.md R13). -/
def DrawsFrom (c : Config) (r r' : GenReg) : Prop :=
  r' = r ∨ ∃ n, (n = 1 ∨ n = 4 ∨ n = 8) ∧ r' = (genNext c)^[n] r

theorem drawsFrom_genNext (c : Config) (r : GenReg) : DrawsFrom c r (genNext c r) := .inr ⟨1, by simp, rfl⟩
theorem drawsFrom_genNibble (c : Config) (r : GenReg) : DrawsFrom c r (genNibble c r).1 := .inr ⟨4, by simp, rfl⟩
theorem drawsFrom_genMask (c : Config) (r : GenReg) : DrawsFrom c r (genMask c r).1 := .inr ⟨8, by simp, rfl⟩

/-- What an operation that draws nothing and frames nothing does to the registers that outlast a command: it keeps them,
but that it may enter a fault. -/
structure KeepsLasting (s t : State) : Prop where
  config : t.config = s.config
  r : t.r = s.r
  hl : t.hl = s.hl
  seeded : t.seeded = s.seeded
  faulted : s.faulted = true → t.faulted = true

theorem keepsLasting_afterMatch : KeepsLasting s (afterMatch s) := by
  unfold afterMatch; split <;> exact ⟨rfl, rfl, rfl, rfl, id⟩

theorem keepsLasting_afterReject : KeepsLasting s (afterReject s) := by
  unfold afterReject; split <;> exact ⟨rfl, rfl, rfl, rfl, id⟩

theorem keepsLasting_startMatch (f : BitVec 5) (d : DiscCode) : KeepsLasting s (startMatch f d s) := by
  unfold startMatch; split <;> exact ⟨rfl, rfl, rfl, rfl, id⟩

theorem keepsLasting_respond (res : Byte) (bytes : List Byte) : KeepsLasting s (respond res bytes s) :=
  ⟨rfl, rfl, rfl, rfl, id⟩

theorem keepsLasting_pushByte (b : Byte) : KeepsLasting s (pushByte b s) := ⟨rfl, rfl, rfl, rfl, id⟩

theorem keepsLasting_raiseFault (f : BlockFault) : KeepsLasting s (raiseFault f s) :=
  ⟨rfl, rfl, rfl, rfl, fun _ => rfl⟩

theorem keepsLasting_malformed (f : BitVec 5) (d : DiscCode) : KeepsLasting s (malformed f d s) :=
  ⟨rfl, rfl, rfl, rfl, fun _ => rfl⟩

theorem keepsLasting_finishCommand : KeepsLasting s (finishCommand s) := ⟨rfl, rfl, rfl, rfl, id⟩

/-- What a step other than reset, INIT and DRST does to the registers that outlast a command: `R` is drawn from at most
once, `HL` changes in `D_KEEP` only, and `FAULT` is not cleared. -/
structure Advances (s t : State) : Prop where
  config : t.config = s.config
  r : DrawsFrom s.config s.r t.r
  hl : t.hl = s.hl ∨ s.ph = .dKeep
  seeded : t.seeded = s.seeded
  faulted : s.faulted = true → t.faulted = true

theorem KeepsLasting.advances (h : KeepsLasting s t) : Advances s t :=
  ⟨h.config, .inl h.r, .inl h.hl, h.seeded, h.faulted⟩

theorem Advances.andKeeps (h : Advances s t) (hk : KeepsLasting t u) : Advances s u where
  config := hk.config.trans h.config
  r := hk.r ▸ h.r
  hl := hk.hl ▸ h.hl
  seeded := hk.seeded.trans h.seeded
  faulted := hk.faulted ∘ h.faulted

/-- The port plays no part in how the block advances. -/
theorem Advances.ofPort {p : List HostAction} (h : Advances { s with port := p } t) : Advances s t :=
  ⟨h.config, h.r, h.hl, h.seeded, h.faulted⟩

theorem advances_setR {r : GenReg} (h : DrawsFrom s.config s.r r) : Advances s (setR r s) :=
  ⟨rfl, h, .inl rfl, rfl, id⟩

theorem advances_drawNibble : Advances s (setR (genNibble s.config s.r).1 s) :=
  advances_setR (drawsFrom_genNibble _ _)

theorem advances_beginSearch : Advances s (beginSearch s) :=
  ⟨rfl, drawsFrom_genMask _ _, .inl rfl, rfl, id⟩

theorem advances_unmaskCodeword : Advances s (unmaskCodeword s).1 :=
  ⟨rfl, drawsFrom_genMask _ _, .inl rfl, rfl, id⟩

theorem advances_discardOne : Advances s (discardOne s) :=
  ⟨rfl, drawsFrom_genNibble _ _, .inl rfl, rfl, id⟩

/-- Framing, of the registers that outlast a command, changes `HL` (and `NB`) only; it happens in `D_KEEP`. -/
theorem Advances.andFrames (h : Advances s t) (hp : s.ph = .dKeep) (p : Nibble) :
    Advances s (frameNibble p t) := by
  unfold frameNibble
  split <;> exact ⟨h.config, h.r, .inr hp, h.seeded, h.faulted⟩

theorem takeTransition_advances (h : takeTransition s = .next t) : Advances s t := by
  unfold takeTransition at h
  split at h <;> rename_i hp
  · cases h; exact KeepsLasting.advances ⟨rfl, rfl, rfl, rfl, id⟩
  · cases h; exact advances_beginSearch
  · obtain ⟨d, -, rfl⟩ | ⟨-, rfl⟩ := phaseESrch_next h
    · exact (advances_drawNibble.andKeeps (keepsLasting_pushByte _)).andKeeps keepsLasting_afterMatch
    · exact advances_drawNibble.andKeeps keepsLasting_afterReject
  · cases h; exact ⟨rfl, drawsFrom_genMask _ _, .inl rfl, rfl, id⟩
  · obtain ⟨-, rfl | ⟨f, d, -, rfl⟩ | ⟨f, d, -, rfl⟩⟩ := exec_codeword_next (decodeCodeword_isCommand _) h
    · exact advances_unmaskCodeword.andKeeps ⟨rfl, rfl, rfl, rfl, id⟩
    · exact advances_unmaskCodeword.andKeeps (keepsLasting_startMatch f d)
    · exact advances_unmaskCodeword.andKeeps (keepsLasting_malformed f d)
  · cases h
    split
    · exact advances_discardOne.andKeeps keepsLasting_finishCommand
    · exact advances_discardOne
  · cases h
    split
    · exact advances_discardOne.andKeeps ⟨rfl, rfl, rfl, rfl, id⟩
    · exact advances_discardOne
  · obtain ⟨e, -, rfl⟩ := phaseDKeep_next h
    exact (advances_drawNibble.andFrames hp _).andKeeps keepsLasting_finishCommand

/-- A drawing command advances the block if its body does: an unseeded block only enters a fault. -/
theorem onSeeded_advances {op : OpCode} {body : State → Result} (h : onSeeded op body s = .next t)
    (hb : body s = .next t → Advances s t) : Advances s t := by
  obtain ⟨-, h⟩ | ⟨-, rfl⟩ := onSeeded_next h
  · exact hb h
  · exact (keepsLasting_raiseFault _).advances

/-- A command that is not INIT or DRST advances the block; these two, once accepted, write as 40_generator.md R65 and
44_decode.md R108 say. -/
theorem exec_command_advances {i : Instr} (hi : i.isCommand = true) (h : exec i s = .next t) :
    Advances s t ∨
      (∃ key, i = .init key ∧ t = respond 0x00#8 [] { s with r := seedOfKey key, seeded := true, hl := false }) ∨
      (i = .drst ∧ t = respond 0x00#8 [] { s with hl := false }) := by
  cases i <;> try (simp [Instr.isCommand, Instr.opCode] at hi; done)
  all_goals simp only [exec, execNop, execInit, execStep, execNibble, execMask, execEncn, execEncb, execDecb, execDrst,
    execReserved9, execReservedA, execReservedB, execReservedC, execReservedD, execReservedE, execReservedF] at h
  all_goals
    obtain ⟨-, ⟨-, rfl⟩ | ⟨-, hb⟩⟩ := onCommand_next h
    · exact .inl (keepsLasting_respond _ _).advances
  case nop => cases hb; exact .inl (keepsLasting_respond _ _).advances
  case init key => cases hb; exact .inr (.inl ⟨key, rfl, rfl⟩)
  case drst => cases hb; exact .inr (.inr ⟨rfl, rfl⟩)
  case step =>
    refine .inl (onSeeded_advances hb fun hb => ?_)
    cases hb
    exact (advances_setR (drawsFrom_genNext _ _)).andKeeps (keepsLasting_respond _ _)
  case nibble =>
    refine .inl (onSeeded_advances hb fun hb => ?_)
    cases hb
    exact advances_drawNibble.andKeeps (keepsLasting_respond _ _)
  case mask =>
    refine .inl (onSeeded_advances hb fun hb => ?_)
    cases hb
    exact (advances_setR (drawsFrom_genMask _ _)).andKeeps (keepsLasting_respond _ _)
  case encn | encb | decb =>
    refine .inl (onSeeded_advances hb fun hb => ?_)
    cases hb
    exact KeepsLasting.advances ⟨rfl, rfl, rfl, rfl, id⟩
  all_goals cases hb; exact .inl (keepsLasting_raiseFault _).advances

/-- The host's next action is reset. -/
def IsReset (s : State) : Prop := ∃ rest, s.port = .reset :: rest

/-- The host's next action is to issue a command word that decodes to `i`. -/
def Issues (i : Instr) (s : State) : Prop := ∃ w rest, s.port = .issue w :: rest ∧ decodeCommand w = i

/-- Everything a step can do to the registers that outlast a command, and who does it: reset, INIT and DRST write as
their rules say; any other step advances the block. The port the step leaves is `p`. -/
theorem step_advances (h : step s = .next t) :
    Advances s t ∨
      ∃ p, (IsReset s ∧ t = resetInput { s with port := p }) ∨
        (∃ key, Issues (.init key) s ∧
          t = respond 0x00#8 [] { s with r := seedOfKey key, seeded := true, hl := false, port := p }) ∨
        (Issues .drst s ∧ t = respond 0x00#8 [] { s with hl := false, port := p }) := by
  cases hp : s.port with
  | nil => rw [step_of_port_nil hp] at h; exact .inl (takeTransition_advances h)
  | cons a rest =>
    rw [step_of_port_cons hp] at h
    cases a with
    | wait => exact .inl (takeTransition_advances h).ofPort
    | awaitIdle =>
      simp only [hostAct] at h
      split at h
      · cases h; exact .inl ⟨rfl, .inl rfl, .inl rfl, rfl, id⟩
      · exact .inl (takeTransition_advances h).ofPort
    | reset => cases h; exact .inr ⟨rest, .inl ⟨⟨rest, hp⟩, rfl⟩⟩
    | issue w =>
      obtain ha | ⟨key, hi, rfl⟩ | ⟨hi, rfl⟩ := exec_command_advances (decodeCommand_isCommand w) h
      · exact .inl ha.ofPort
      · exact .inr ⟨rest, .inr (.inl ⟨key, ⟨w, rest, hp, hi⟩, rfl⟩)⟩
      · exact .inr ⟨rest, .inr (.inr ⟨⟨w, rest, hp, hi⟩, rfl⟩)⟩
    | readStatus | readFinfo | takeOut => cases h; exact .inl ⟨rfl, .inl rfl, .inl rfl, rfl, id⟩

/-- The seed of a key is its low 24 bits (30_encoding.md R50). -/
theorem seedOfKey_eq_extractLsb' (key : Arg) : seedOfKey key = key.extractLsb' 0 24 :=
  BitVec.setWidth_eq_extractLsb' (by decide)

/-- Settles O48, from what a step does to the lasting registers and who does it. -/
theorem registerWriters : Obligations.RegisterWriters := by
  intro s t h
  obtain ha | ⟨p, ⟨hreset, rfl⟩ | ⟨key, ⟨w, rest, hp, hi⟩, rfl⟩ | ⟨-, rfl⟩⟩ := step_advances h
  · obtain hr | hr := ha.r
    · exact ⟨ha.config, .inl hr⟩
    · exact ⟨ha.config, .inr (.inl hr)⟩
  · exact ⟨rfl, .inr (.inr (.inr hreset))⟩
  · exact ⟨rfl, .inr (.inr (.inl ⟨w, rest, key, hp, hi, seedOfKey_eq_extractLsb' key⟩))⟩
  · exact ⟨rfl, .inl rfl⟩

/-- Settles O49, from what a step does to the lasting registers and who does it. -/
theorem flagWriters : Obligations.FlagWriters := by
  intro s t h
  obtain ha | ⟨p, ⟨hreset, rfl⟩ | ⟨key, ⟨w, rest, hp, hi⟩, rfl⟩ | ⟨⟨w, rest, hp, hi⟩, rfl⟩⟩ := step_advances h
  · refine ⟨?_, ?_, ?_, fun hne => .inr (.inr (ha.hl.resolve_left hne))⟩
    · intro hs ht; simp [ha.seeded, hs] at ht
    · intro hs ht; simp [ha.seeded, hs] at ht
    · intro hs ht; simp [ha.faulted hs] at ht
  · exact ⟨fun _ _ => hreset, fun _ ht => by simp at ht, fun _ _ => hreset, fun _ => .inl hreset⟩
  · refine ⟨fun _ ht => by simp at ht, fun _ _ => ⟨w, rest, key, hp, hi⟩, ?_,
      fun _ => .inr (.inl ⟨w, rest, hp, .inr ⟨key, hi⟩⟩)⟩
    intro hs ht; simp [hs] at ht
  · refine ⟨?_, ?_, ?_, fun _ => .inr (.inl ⟨w, rest, hp, .inl hi⟩)⟩
    · intro hs ht; simp [hs] at ht
    · intro hs ht; simp [hs] at ht
    · intro hs ht; simp [hs] at ht

end Sys2Proof.Machine
end

section
/-! The reset values, the layout of STATUS and the host's reads. -/

namespace Sys2Proof.Machine

/-- Settles O1: every clause is a field of `State.resetWith` or of `Config.hardware`. -/
theorem resetValues : Obligations.ResetValues :=
  ⟨fun _ => ⟨rfl, rfl, rfl, rfl, rfl, rfl, rfl, rfl, rfl⟩, rfl, rfl, rfl⟩

/-- The bits of `STATUS`, lowest first (10_state.md R22). -/
theorem statusByte_getLsbD (s : State) (i : Nat) :
    (statusByte s).getLsbD i =
      match i with
      | 0 => s.seeded
      | 1 => s.hl
      | 2 => s.faulted
      | 3 => s.cause.getLsbD 0
      | 4 => s.cause.getLsbD 1
      | 5 => busy s
      | _ => false := by
  unfold statusByte
  match i with
  | 0 | 1 | 2 | 3 | 4 | 5 | 6 | 7 =>
    simp only [BitVec.getLsbD_append]
    simp
  | i + 8 => exact BitVec.getLsbD_of_ge _ _ (by omega)

/-- `STATUS[4:3]` is `CAUSE`. -/
theorem statusByte_cause (s : State) : (statusByte s).extractLsb' 3 2 = s.cause := by
  refine BitVec.eq_of_getLsbD_eq fun i hi => ?_
  obtain rfl | rfl : i = 0 ∨ i = 1 := by omega
  all_goals simp only [BitVec.getLsbD_extractLsb', statusByte_getLsbD]; simp

/-- `STATUS[7:6]` is zero. -/
theorem statusByte_high (s : State) : (statusByte s).extractLsb' 6 2 = 0#2 := by
  refine BitVec.eq_of_getLsbD_eq fun i hi => ?_
  obtain rfl | rfl : i = 0 ∨ i = 1 := by omega
  all_goals simp only [BitVec.getLsbD_extractLsb', statusByte_getLsbD]; simp

/-- A host's read is an observation of the block, in any phase; the registers are not touched. -/
theorem step_readStatus {s : State} {rest : List HostAction} (h : s.port = .readStatus :: rest) :
    step s = .next { s with port := rest, seen := s.seen ++ [.status (statusByte s)] } := by
  rw [step_of_port_cons h]; rfl

theorem step_readFinfo {s : State} {rest : List HostAction} (h : s.port = .readFinfo :: rest) :
    step s = .next { s with port := rest, seen := s.seen ++ [.finfo s.finfo] } := by
  rw [step_of_port_cons h]; rfl

theorem step_takeOut {s : State} {rest : List HostAction} (h : s.port = .takeOut :: rest) :
    step s = .next { s with port := rest, seen := s.seen ++ [.taken s.out] } := by
  rw [step_of_port_cons h]; rfl

/-- Settles O42, from the bits of `STATUS` and the step of its read; `CAUSE` is 0 without a fault by the invariant. -/
theorem statusLayout : Obligations.StatusLayout := by
  refine ⟨fun s => ⟨statusByte_getLsbD s 0, statusByte_getLsbD s 1, statusByte_getLsbD s 2, statusByte_cause s,
    statusByte_getLsbD s 5, statusByte_high s, ?_, fun rest => step_readStatus⟩, by decide⟩
  rintro ⟨⟨hunfaulted, -⟩, -⟩ hf
  obtain ⟨hcause, -⟩ := hunfaulted hf
  exact (statusByte_cause s).trans hcause

/-- Settles O43, by the step of each read. -/
theorem hostReadsHaveNoSideEffect : Obligations.HostReadsHaveNoSideEffect :=
  fun _ _ => ⟨step_readStatus, step_readFinfo, step_takeOut⟩

end Sys2Proof.Machine
end

section
/-! The consumption pattern (20_memory.md R44). Every draw of the big-step rules is a run of generator steps, so the
register after a search or a decoded byte is a point of one trajectory; the encode clause is an induction on the search,
with the register given as the steps since the attempt's mask was drawn. -/

namespace Sys2Proof.Machine

/-! ### The draws as generator steps -/

/-- Steps after steps are one run of steps. -/
theorem genNext_iterate_add (c : Config) (r : GenReg) {m n k : Nat} (h : m + n = k) :
    (genNext c)^[m] ((genNext c)^[n] r) = (genNext c)^[k] r := by
  rw [← h, Function.iterate_add_apply]

theorem genNibble_fst_iterate (c : Config) (r : GenReg) : (genNibble c r).1 = (genNext c)^[4] r := rfl
theorem genMask_fst_iterate (c : Config) (r : GenReg) : (genMask c r).1 = (genNext c)^[8] r := rfl

/-- Each nibble discarded is four steps. -/
theorem discardNibbles_iterate (c : Config) (n : Nat) (r : GenReg) :
    discardNibbles c n r = (genNext c)^[4 * n] r := by
  induction n generalizing r with
  | zero => rfl
  | succ n ih =>
    calc discardNibbles c n (genNibble c r).1
      _ = (genNext c)^[4 * n] ((genNext c)^[4] r) := ih _
      _ = (genNext c)^[4 * (n + 1)] r := genNext_iterate_add c r rfl

/-! ### Encoding -/

/-- A byte masked and unmasked is itself (30_encoding.md R57). -/
theorem applyMask_xor_mask (b m : Byte) : applyMask b m ^^^ m = b := by
  simp [applyMask]

/-- A failure count that fits five bits is the high field of the codeword (30_encoding.md R54). -/
theorem makeCodeword_eq_append (fails : BitVec 6) (d : DiscCode) (hlt : fails.toNat < 32) :
    makeCodeword fails d = fails.setWidth 5 ++ d := by
  have hshift : fails.toNat <<< 3 < 256 := by rw [Nat.shiftLeft_eq]; omega
  have hd : d.toNat < 256 := by omega
  refine BitVec.eq_of_toNat_eq (Eq.trans ?_ (BitVec.toNat_append _ _).symm)
  simp [makeCodeword, Nat.mod_eq_of_lt, hshift, hd, hlt, show fails.toNat < 256 by omega]

/-- `bytes` encodes a nibble from the register `r` with `e` escapes, then a match with final count `f` and discrepancy
`d`, and leaves the register `r'`. Each byte is read under the mask drawn at its place of the trajectory. -/
structure EscapesThenMatch (c : Config) (r : GenReg) (bytes : List Byte) (r' : GenReg)
    (e : Nat) (f : BitVec 5) (d : DiscCode) : Prop where
  length : bytes.length = e + 1
  escapes : ∀ k b, k < e → bytes[k]? = some b → b ^^^ (genMask c ((genNext c)^[136 * k] r)).2 = escCodeword
  last : bytes.getLast? = some (applyMask (f ++ d) (genMask c ((genNext c)^[136 * e] r)).2)
  register : r' = (genNext c)^[4 * (34 * e + f.toNat + 3)] r

section

variable {c : Config} {r r' : GenReg} {bytes : List Byte} {e : Nat} {f : BitVec 5} {d : DiscCode}

/-- A match in the first attempt pushes one byte. -/
theorem EscapesThenMatch.ofMatch (c : Config) (r : GenReg) (f : BitVec 5) (d : DiscCode) :
    EscapesThenMatch c r [applyMask (f ++ d) (genMask c r).2] ((genNext c)^[4 * (f.toNat + 3)] r) 0 f d where
  length := rfl
  escapes _ _ hk := absurd hk (Nat.not_lt_zero _)
  last := rfl
  register := by simp

/-- An attempt that fails 32 times pushes the sentinel under its mask; the next attempt starts 136 steps later. -/
theorem EscapesThenMatch.afterEscape (h : EscapesThenMatch c ((genNext c)^[136] r) bytes r' e f d) :
    EscapesThenMatch c r (applyMask escCodeword (genMask c r).2 :: bytes) r' (e + 1) f d where
  length := by simp [h.length]
  escapes k b hk hb := by
    cases k with
    | zero =>
      obtain rfl : applyMask escCodeword (genMask c r).2 = b := by simpa using hb
      exact applyMask_xor_mask _ _
    | succ k =>
      have := h.escapes k b (by omega) (by simpa using hb)
      rwa [genNext_iterate_add c r (Nat.mul_succ 136 k).symm] at this
  last := by
    have hne : bytes ≠ [] := List.ne_nil_of_length_eq_add_one h.length
    rw [List.getLast?_cons_of_ne_nil hne, h.last, genNext_iterate_add c r (Nat.mul_succ 136 e).symm]
  register := h.register.trans (genNext_iterate_add c r (by omega))

end

/-- A search that ends consumes as R44 says. The attempt began at `r`; its mask and `fails` rejected nibbles have been
drawn since. -/
theorem encodeSearch_escapesThenMatch (c : Config) (p : Nibble) (fuel : Nat) (r r' : GenReg) (bytes : List Byte)
    (fails : BitVec 6) (hlt : fails.toNat < 32)
    (h : encodeSearch c fuel ((genNext c)^[4 * (fails.toNat + 2)] r) p (genMask c r).2 fails = some (r', bytes)) :
    ∃ e f d, d.toNat ≤ 4 ∧ EscapesThenMatch c r bytes r' e f d := by
  induction fuel generalizing r bytes fails with
  | zero => simp [encodeSearch] at h
  | succ fuel ih =>
    have hdraw : (genNibble c ((genNext c)^[4 * (fails.toNat + 2)] r)).1 = (genNext c)^[4 * (fails.toNat + 3)] r :=
      genNext_iterate_add c r (m := 4) (by omega)
    simp only [encodeSearch, hdraw] at h
    split_ifs at h with hvalid hfull
    · -- the nibble matches
      obtain ⟨d, hd, hpair⟩ := Option.map_eq_some_iff.mp h
      obtain ⟨rfl, rfl⟩ := Prod.mk.inj hpair
      have hf : (fails.setWidth 5).toNat = fails.toNat := by simp; omega
      refine ⟨0, fails.setWidth 5, d, tabDisc_le _ d hd, ?_⟩
      rw [makeCodeword_eq_append fails d hlt, ← hf]
      exact .ofMatch c r _ d
    · -- the 32nd rejection of the attempt
      have hfails : fails.toNat = 31 := by
        have := congrArg BitVec.toNat hfull
        simp [maxFail] at this; omega
      obtain ⟨⟨r'', rest⟩, hrest, hpair⟩ := Option.map_eq_some_iff.mp h
      obtain ⟨rfl, rfl⟩ := Prod.mk.inj hpair
      rw [hfails] at hrest
      obtain ⟨e, f, d, hd, henc⟩ := ih ((genNext c)^[136] r) rest 0#6 (by decide) hrest
      exact ⟨e + 1, f, d, hd, henc.afterEscape⟩
    · -- an earlier rejection
      have hne : fails.toNat ≠ 31 := fun h31 =>
        hfull (BitVec.eq_of_toNat_eq (by simp [maxFail, h31]))
      have hsucc : (fails + 1#6).toNat = fails.toNat + 1 := by
        simp; omega
      exact ih r bytes (fails + 1#6) (by omega) (by rw [hsucc]; exact h)

/-- An encoded nibble is some escapes and then a match, from the register it starts at. -/
theorem encodeNibble_escapesThenMatch {c : Config} {fuel : Nat} {r r' : GenReg} {p : Nibble} {bytes : List Byte}
    (h : encodeNibble c fuel r p = some (r', bytes)) :
    ∃ e f d, d.toNat ≤ 4 ∧ EscapesThenMatch c r bytes r' e f d :=
  encodeSearch_escapesThenMatch c p fuel r r' bytes 0#6 (by decide) h

/-! ### Decoding -/

@[simp] theorem frameBig_r (p : Nibble) (d : Decoding) : (frameBig p d).r = d.r := by
  unfold frameBig; split <;> rfl

/-- The sentinel discards 32 nibbles (44_decode.md R102). -/
theorem decodeCodewordBig_r_of_esc (c : Config) (d : Decoding) :
    (decodeCodewordBig c escCodeword d).r = (genNext c)^[128] d.r := by
  simp [decodeCodewordBig, discardNibbles_iterate]

/-- A malformed codeword draws nothing (44_decode.md R101). -/
theorem decodeCodewordBig_r_of_malformed (c : Config) (d : Decoding) {cw : Byte} (hesc : cw ≠ escCodeword)
    (hbad : 5 ≤ (discrepancyField cw).toNat) : (decodeCodewordBig c cw d).r = d.r := by
  have hinv : tabInv (discrepancyField cw) = none := by
    have := tabInv_isSome (discrepancyField cw)
    simpa [show ¬ (discrepancyField cw).toNat ≤ 4 by omega] using this
  simp [decodeCodewordBig, hesc, hinv]

/-- A match codeword discards as many nibbles as failures were counted and keeps the next (44_decode.md R103). -/
theorem decodeCodewordBig_r_of_match (c : Config) (d : Decoding) {cw : Byte} (hgood : (discrepancyField cw).toNat ≤ 4) :
    (decodeCodewordBig c cw d).r = (genNext c)^[4 * ((failCountField cw).toNat + 1)] d.r := by
  have hesc : cw ≠ escCodeword := by rintro rfl; exact absurd hgood (by decide)
  obtain ⟨e, he⟩ : ∃ e, tabInv (discrepancyField cw) = some e :=
    Option.isSome_iff_exists.mp ((tabInv_isSome _).trans (decide_eq_true hgood))
  simp only [decodeCodewordBig, hesc, he, if_false, frameBig_r, discardNibbles_iterate, genNibble_fst_iterate]
  exact genNext_iterate_add c d.r (by omega)

/-- A byte decoded before any fault draws its mask, eight steps, and is then its codeword's. -/
theorem decodeByteBig_of_unfaulted (c : Config) {d : Decoding} (ct : Byte) (h : d.malformedAt = none) :
    decodeByteBig c d ct =
      decodeCodewordBig c (applyMask ct (genMask c d.r).2) { d with r := (genNext c)^[8] d.r } := by
  simp [decodeByteBig, h, genMask_fst_iterate]

/-- Settles O55: the encode clause by the induction on the search, the decode clauses by the class of the codeword, each
after the eight steps of the mask. -/
theorem consumptionPattern : Obligations.ConsumptionPattern := by
  refine ⟨fun c fuel r r' p bytes h => ?_, fun c d ct hok => ?_⟩
  · obtain ⟨e, f, disc, hdisc, henc⟩ := encodeNibble_escapesThenMatch h
    exact ⟨e, f, disc, _, henc.length, henc.escapes, henc.last, applyMask_xor_mask _ _, hdisc, henc.register⟩
  · rw [decodeByteBig_of_unfaulted c ct hok]
    refine ⟨fun hesc => ?_, fun hesc hbad => ?_, fun hgood => ?_⟩
    · rw [show applyMask ct (genMask c d.r).2 = escCodeword from hesc, decodeCodewordBig_r_of_esc]
      exact genNext_iterate_add c d.r rfl
    · exact decodeCodewordBig_r_of_malformed c _ hesc hbad
    · refine (decodeCodewordBig_r_of_match c _ hgood).trans ?_
      exact genNext_iterate_add c d.r (Nat.mul_add 4 _ 2).symm

end Sys2Proof.Machine
end

section
/-! The two instruction formats (30_encoding.md). The fields of a word and the word put together from fields determine
each other; from this, decoding undoes encoding, and encoding undoes decoding up to the bits of `arg` that an operation
does not take. -/

namespace Sys2Proof

/-! ### Codewords -/

@[simp] theorem failCountField_append (f : BitVec 5) (d : DiscCode) : failCountField (f ++ d) = f :=
  BitVec.extractLsb'_append_eq_left

@[simp] theorem discrepancyField_append (f : BitVec 5) (d : DiscCode) : discrepancyField (f ++ d) = d :=
  BitVec.extractLsb'_append_eq_right

/-- A codeword is its two fields (30_encoding.md R54). -/
theorem append_codewordFields (cw : Byte) : failCountField cw ++ discrepancyField cw = cw :=
  BitVec.extractLsb'_append_extractLsb' (w := 5) (len := 3)

/-- The fields of the sentinel are 31 and 7; any others make another codeword (30_encoding.md R55). -/
theorem append_ne_escCodeword {f : BitVec 5} {d : DiscCode} (h : d ≠ 7#3 ∨ f ≠ 31#5) : f ++ d ≠ escCodeword := by
  intro he
  have hd : d = 7#3 := (discrepancyField_append f d).symm.trans (congrArg discrepancyField he)
  have hf : f = 31#5 := (failCountField_append f d).symm.trans (congrArg failCountField he)
  exact h.elim (absurd hd) (absurd hf)

theorem decodeCodeword_esc : decodeCodeword escCodeword = .cwEsc := if_pos rfl

/-- Past the sentinel test a codeword is decoded by its fields. -/
theorem decodeCodeword_of_ne_esc {cw : Byte} (h : cw ≠ escCodeword) :
    decodeCodeword cw = decodeFields (failCountField cw) (discrepancyField cw) := if_neg h

theorem decodeCodeword_append {f : BitVec 5} {d : DiscCode} (h : d ≠ 7#3 ∨ f ≠ 31#5) :
    decodeCodeword (f ++ d) = decodeFields f d := by
  rw [decodeCodeword_of_ne_esc (append_ne_escCodeword h), failCountField_append, discrepancyField_append]

/-- A codeword class is encoded as the fields it was decoded from. -/
theorem encode_decodeFields (f : BitVec 5) (d : DiscCode) : encode (decodeFields f d) = .codeword (f ++ d) := by
  obtain ⟨d⟩ := d
  fin_cases d <;> rfl

/-- No fields decode to the sentinel: it is told by the whole word. -/
theorem decodeFields_ne_cwEsc (f : BitVec 5) (d : DiscCode) : decodeFields f d ≠ .cwEsc := by
  obtain ⟨d⟩ := d
  fin_cases d <;> exact Instr.noConfusion

theorem decodeCodeword_eq_cwEsc_iff (cw : Byte) : decodeCodeword cw = .cwEsc ↔ cw = escCodeword := by
  constructor
  · intro h
    by_contra hne
    exact decodeFields_ne_cwEsc _ _ ((decodeCodeword_of_ne_esc hne).symm.trans h)
  · rintro rfl
    exact decodeCodeword_esc

theorem encode_decodeCodeword (cw : Byte) : encode (decodeCodeword cw) = .codeword cw := by
  by_cases h : cw = escCodeword
  · rw [h, decodeCodeword_esc]
    rfl
  · rw [decodeCodeword_of_ne_esc h, encode_decodeFields, append_codewordFields]

/-! ### Command words -/

/-- The bits of `arg` that the operation `op` takes, every other bit 0 (30_encoding.md R47). -/
def takenArg (op : OpCode) (arg : Arg) : Arg :=
  if op = 0x1#4 then arg
  else if op = 0x5#4 then (nibbleOperand arg).setWidth 64
  else if op = 0x6#4 ∨ op = 0x7#4 then (byteOperand arg).setWidth 64
  else 0#64

@[simp] theorem nibbleOperand_setWidth (p : Nibble) : nibbleOperand (p.setWidth 64) = p := by
  simp [nibbleOperand, BitVec.extractLsb'_setWidth_of_le]

@[simp] theorem byteOperand_setWidth (b : Byte) : byteOperand (b.setWidth 64) = b := by
  simp [byteOperand, BitVec.extractLsb'_setWidth_of_le]

theorem argField_eq_setWidth (w : CmdWord) : argField w = w.setWidth 64 :=
  (BitVec.setWidth_eq_extractLsb' (by decide)).symm

/-- The low bits of `arg` are those of the command word. -/
theorem nibbleOperand_argField (w : CmdWord) : nibbleOperand (argField w) = w.extractLsb' 0 4 := by
  rw [nibbleOperand, argField_eq_setWidth, BitVec.extractLsb'_setWidth_of_le (by decide)]

theorem byteOperand_argField (w : CmdWord) : byteOperand (argField w) = w.extractLsb' 0 8 := by
  rw [byteOperand, argField_eq_setWidth, BitVec.extractLsb'_setWidth_of_le (by decide)]

/-- A command word is decoded by the parts it was put together from. -/
theorem decodeWord_commandWord (op : OpCode) (arg : Arg) :
    decodeWord (.command (commandWord op arg)) = decodeOp op arg := by
  rw [decodeWord, decodeCommand, Laws.opField_commandWord, Laws.argField_commandWord]

theorem decodeCommand_of_opField {w : CmdWord} {op : OpCode} (h : opField w = op) :
    decodeCommand w = decodeOp op (argField w) := by
  rw [decodeCommand, h]

/-- A command is encoded as its op and the bits it takes. -/
theorem encode_decodeOp (op : OpCode) (arg : Arg) :
    encode (decodeOp op arg) = .command (commandWord op (takenArg op arg)) := by
  obtain ⟨op⟩ := op
  fin_cases op <;> rfl

theorem encode_decodeCommand (w : CmdWord) :
    encode (decodeCommand w) = .command (commandWord (opField w) (takenArg (opField w) (argField w))) :=
  encode_decodeOp _ _

/-- Only a codeword can be ill-formed. -/
theorem wellFormed_of_isCommand {i : Instr} (h : i.isCommand = true) : WellFormed i = true := by
  cases i with
  | cwBad7 => exact absurd h Bool.false_ne_true
  | _ => rfl

/-! ### Bit strings -/

theorem readWord_codeword (w : Nat) :
    readWord 8 w = if w < 2 ^ 8 then .ok (.codeword (BitVec.ofNat 8 w)) else .error .bitsAboveWord := if_pos rfl

theorem readWord_command {nbits : Nat} (h : nbits = 68 ∨ nbits = 72) (w : Nat) :
    readWord nbits w = if w < 2 ^ 68 then .ok (.command (BitVec.ofNat 68 w)) else .error .bitsAboveWord := by
  have h8 : nbits ≠ 8 := by omega
  rw [readWord, if_neg h8, if_pos h]

theorem readWord_noFormat {nbits : Nat} (h8 : nbits ≠ 8) (h : ¬ (nbits = 68 ∨ nbits = 72)) (w : Nat) :
    readWord nbits w = .error .noSuchFormat := by
  rw [readWord, if_neg h8, if_neg h]

/-! ### The statements -/

/-- Settles O7: a command word gives back its op and operand, a codeword its two fields; well-formedness rules out the
one pair of fields that is the sentinel. -/
theorem decodeUndoesEncode : Obligations.DecodeUndoesEncode := by
  intro i hi
  cases i with
  | nop | init | step | nibble | mask | drst | reserved9 | reservedA | reservedB | reservedC | reservedD | reservedE
  | reservedF => exact decodeWord_commandWord _ _
  | encn p => exact (decodeWord_commandWord _ _).trans (congrArg Instr.encn (nibbleOperand_setWidth p))
  | encb b => exact (decodeWord_commandWord _ _).trans (congrArg Instr.encb (byteOperand_setWidth b))
  | decb c => exact (decodeWord_commandWord _ _).trans (congrArg Instr.decb (byteOperand_setWidth c))
  | cwEsc => exact decodeCodeword_esc
  | cwMatch0 | cwMatch1 | cwMatch2 | cwMatch3 | cwMatch4 | cwBad5 | cwBad6 =>
    exact decodeCodeword_append (.inl (by decide))
  | cwBad7 f =>
    have hf : f ≠ 31#5 := by rintro rfl; exact absurd hi (by decide)
    exact decodeCodeword_append (.inr hf)

/-- Settles O8: each format's words are put together again from the fields they were decoded by. -/
theorem encodeUndoesDecode : Obligations.EncodeUndoesDecode :=
  ⟨encode_decodeCodeword, encode_decodeCommand⟩

/-- Settles O5: thirteen closed facts, which the decoder evaluates. -/
theorem specWordsDecode : Obligations.SpecWordsDecode := by
  refine ⟨?_, ?_, ?_, ?_, ?_, ?_, ?_, ?_, ?_, ?_, ?_, ?_, ?_⟩ <;> decide

/-- Settles O6: the number of bits chooses the format, and then the word must fit it. -/
theorem decoderRejectsByName : Obligations.DecoderRejectsByName := by
  intro nbits w
  refine ⟨?_, fun h hw => ?_, ?_, fun h hw => ?_, fun h8 h68 h72 => ?_⟩
  · rintro rfl hw
    exact congrArg (Except.map decodeWord) ((readWord_codeword w).trans (if_pos hw))
  · exact congrArg (Except.map decodeWord) ((readWord_command h w).trans (if_pos hw))
  · rintro rfl hw
    exact congrArg (Except.map decodeWord) ((readWord_codeword w).trans (if_neg (Nat.not_lt.mpr hw)))
  · exact congrArg (Except.map decodeWord) ((readWord_command h w).trans (if_neg (Nat.not_lt.mpr hw)))
  · exact congrArg (Except.map decodeWord) (readWord_noFormat h8 (not_or.mpr ⟨h68, h72⟩) w)

/-- Settles O9: each code selects its arm of the decoder, and the operands are the low bits of the word. -/
theorem commandCodes : Obligations.CommandCodes := by
  intro w
  rw [← nibbleOperand_argField, ← byteOperand_argField]
  refine ⟨?_, ?_, ?_, ?_, ?_, ?_, ?_, ?_, ?_, ?_, ?_, ?_, ?_, ?_, ?_, ?_⟩ <;>
    exact fun h => decodeCommand_of_opField h

/-- The bits an operation does not take play no part in what is decoded: the decoded command encodes to the taken bits
alone, and decodes back from them. -/
theorem decodeCommand_eq_of_takenArg {w v : CmdWord} (hop : opField w = opField v)
    (harg : takenArg (opField v) (argField w) = takenArg (opField v) (argField v)) :
    decodeCommand w = decodeCommand v := by
  have hback (u : CmdWord) : decodeWord (encode (decodeCommand u)) = decodeCommand u :=
    decodeUndoesEncode _ (wellFormed_of_isCommand (Machine.decodeCommand_isCommand u))
  rw [← hback w, ← hback v, encode_decodeCommand, encode_decodeCommand, hop, harg]

/-- Settles O10, from the bits each operation takes. -/
theorem untakenBitsAreIgnored : Obligations.UntakenBitsAreIgnored := by
  intro w v hop hinit hencn hbyte
  rw [hop] at hinit hencn hbyte
  rw [← nibbleOperand_argField, ← nibbleOperand_argField] at hencn
  rw [← byteOperand_argField, ← byteOperand_argField] at hbyte
  refine decodeCommand_eq_of_takenArg hop ?_
  unfold takenArg
  split_ifs with h1 h5 h67
  · exact hinit h1
  · rw [hencn h5]
  · rw [hbyte h67]
  · rfl

/-- Among the 256 codewords only 0xFF is the sentinel. -/
theorem decodeCodeword_ofNat_ne_cwEsc {n : Nat} (hn : n < 256) :
    decodeCodeword (BitVec.ofNat 8 n) ≠ .cwEsc ↔ n ≠ 255 := by
  rw [Ne, decodeCodeword_eq_cwEsc_iff, ← BitVec.toNat_inj]
  simp [escCodeword, Nat.mod_eq_of_lt hn]

/-- Counting the codewords other than the sentinel is counting the numbers below 256 other than 255. -/
theorem filter_codewords (p : Nat → Prop) [DecidablePred p] :
    ((List.range 256).filter fun n => decide (decodeCodeword (BitVec.ofNat 8 n) ≠ .cwEsc ∧ p n)) =
      (List.range 256).filter fun n => decide (n ≠ 255 ∧ p n) :=
  List.filter_congr fun n hn => by
    rw [decide_eq_decide, decodeCodeword_ofNat_ne_cwEsc (List.mem_range.mp hn)]

/-- Settles O11: the sentinel test, then the low three bits select the class; the counts are those of the numbers below
256 by their remainder modulo 8. -/
theorem codewordClasses : Obligations.CodewordClasses := by
  refine ⟨decodeCodeword_eq_cwEsc_iff, fun cw hcw => ?_, ?_, ?_⟩
  · have hfields (d : DiscCode) (hd : discrepancyField cw = d) :
        decodeCodeword cw = decodeFields (failCountField cw) d := hd ▸ decodeCodeword_of_ne_esc hcw
    exact ⟨hfields _, hfields _, hfields _, hfields _, hfields _, hfields _, hfields _, hfields _⟩
  · rw [filter_codewords]
    rfl
  · rw [filter_codewords]
    rfl

end Sys2Proof
end

section
/-! What is fetched and run: the command word the host issues, and the codeword phase `D_MASK` classifies. Then the
bytes a move pushes, of which the encoder's are match and escape codewords. -/

namespace Sys2Proof.Machine

/-! ### Issued commands -/

theorem step_issue {s : State} {w : CmdWord} {rest : List HostAction} (h : s.port = .issue w :: rest) :
    step s = exec (decodeCommand w) { s with port := rest } :=
  step_of_port_cons h

/-- Settles O3: the word leaves the port, and a command is always well-formed. -/
theorem stepRunsTheIssuedCommand : Obligations.StepRunsTheIssuedCommand :=
  fun _ w _ h => ⟨wellFormed_of_isCommand (decodeCommand_isCommand w), step_issue h⟩

/-! ### Codewords in phase `D_MASK` -/

/-- A codeword that is not the sentinel starts a match or is malformed, by its discrepancy (44_decode.md R105). -/
def classify (f : BitVec 5) (d : DiscCode) (s : State) : State :=
  if d.toNat ≤ 4 then startMatch f d s else malformed f d s

theorem exec_decodeFields (f : BitVec 5) (d : DiscCode) (s : State) :
    exec (decodeFields f d) s = onCodeword (fun s => .next (classify f d s)) s := by
  obtain ⟨d⟩ := d
  fin_cases d <;> rfl

theorem exec_decodeFields_dMask {s : State} (hp : s.ph = .dMask) (f : BitVec 5) (d : DiscCode) :
    exec (decodeFields f d) s = .next (classify f d s) :=
  (exec_decodeFields f d s).trans (onCodeword_dMask hp)

theorem exec_cwEsc_dMask {s : State} (hp : s.ph = .dMask) :
    exec .cwEsc s = .next { s with cw := escCodeword, fails := maxFail, ph := .dEsc } := by
  rw [exec, execCwEsc, onCodeword_dMask hp]

/-- Settles O34: the three malformed classes are the fields with discrepancy 5, 6 and 7. -/
theorem malformedCodewordsFault : Obligations.MalformedCodewordsFault := by
  intro s f i d hp hi _
  simp only [List.mem_cons, Prod.mk.injEq, List.not_mem_nil, or_false] at hi
  obtain ⟨rfl, rfl⟩ | ⟨rfl, rfl⟩ | ⟨rfl, rfl⟩ := hi
  · exact exec_decodeFields_dMask hp f 5#3
  · exact exec_decodeFields_dMask hp f 6#3
  · exact exec_decodeFields_dMask hp f 7#3

/-! ### The bytes pushed -/

/-- A move that pushes a byte is a match, an escape, or a kept nibble that completes a byte. -/
theorem Move.pushes {s t : State} {b : Byte} (h : Move s t) (hb : t.out = s.out ++ [b]) :
    (s.ph = .eSrch ∧ ∃ d : DiscCode, d.toNat ≤ 4 ∧ b = applyMask (makeCodeword s.fails d) s.mask) ∨
      (s.ph = .eOvf ∧ b = applyMask escCodeword s.mask) ∨ s.ph = .dKeep := by
  have hpush {c : Byte} (hc : t.out = s.out ++ [c]) : b = c := by simpa [hc, eq_comm] using hb
  have hkeep (hout : t.out = s.out) : False := by simp [hout] at hb
  cases h with
  | matchesNibble d hp hd => exact .inl ⟨hp, d, tabDisc_le _ d hd, hpush (by simp)⟩
  | escapes hp => exact .inr (.inl ⟨hp, hpush rfl⟩)
  | keepsNibble e hp => exact .inr (.inr hp)
  | rejectsNibble => exact (hkeep (by simp)).elim
  | findsMatch => exact (hkeep (by simp [unmaskCodeword])).elim
  | discardsEscaped => exact (hkeep (by split <;> rfl)).elim
  | discardsRejected => exact (hkeep (by split <;> rfl)).elim
  | _ => exact (hkeep rfl).elim

theorem step_pushes {s t : State} {b : Byte} (h : step s = .next t) (hb : t.out = s.out ++ [b]) :
    (s.ph = .eSrch ∧ ∃ d : DiscCode, d.toNat ≤ 4 ∧ b = applyMask (makeCodeword s.fails d) s.mask) ∨
      (s.ph = .eOvf ∧ b = applyMask escCodeword s.mask) ∨ s.ph = .dKeep :=
  let ⟨_, hm⟩ := step_next h
  hm.pushes hb

/-- Settles O50: a byte pushed in `E_SRCH` is the masked codeword of a match, whose fail_count is `FAILS` since the
invariant keeps it below 32; a byte pushed in `E_OVF` is the masked sentinel. -/
theorem encoderProducesOnlyMatchAndEscape : Obligations.EncoderProducesOnlyMatchAndEscape := by
  rintro s t b ⟨-, -, ⟨hfails, -⟩, -⟩ hstep hb
  obtain ⟨hp, d, hd, hbyte⟩ | ⟨hp, hbyte⟩ | hp := step_pushes hstep hb
  · refine ⟨fun _ => ?_, fun ho => by simp [hp] at ho⟩
    have hlt : s.fails.toNat < 32 := Nat.lt_succ_of_le (hfails hp)
    have hcw : b ^^^ s.mask = s.fails.setWidth 5 ++ d := by
      rw [hbyte, applyMask_xor_mask, makeCodeword_eq_append s.fails d hlt]
    rw [hcw]
    refine ⟨append_ne_escCodeword (.inl ?_), ?_, ?_⟩
    · rintro rfl
      exact absurd hd (by decide)
    · exact (congrArg BitVec.toNat (discrepancyField_append _ d)).trans_le hd
    · rw [show (s.fails.setWidth 5 ++ d).extractLsb' 3 5 = s.fails.setWidth 5 from failCountField_append _ d,
        BitVec.toNat_setWidth, Nat.mod_eq_of_lt hlt]
  · exact ⟨fun hs => by simp [hp] at hs, fun _ => hbyte ▸ applyMask_xor_mask _ _⟩
  · exact ⟨fun hs => by simp [hp] at hs, fun ho => by simp [hp] at ho⟩

end Sys2Proof.Machine
end

section
/-! Runs of the machine. `Works` is a run through busy states, as a codec command makes it between its acceptance and
its response; it says the same whether the host has nothing more to do or waits for the block to be idle (`Waits`). -/

namespace Sys2Proof.Machine

variable {s t u : State} {m n : Nat}

/-! ### Runs -/

theorem run_succ_eq_next {M : Host.Core} {k : Nat} {s t : M.State} :
    M.run (k + 1) s = .next t ↔ ∃ u, M.step s = .next u ∧ M.run k u = .next t := by
  cases h : M.step s <;> simp [Host.Core.run, h]

theorem reaches_zero : Reaches 0 s t ↔ s = t := ⟨Host.Outcome.next.inj, congrArg _⟩

theorem reaches_succ : Reaches (n + 1) s t ↔ ∃ u, step s = .next u ∧ Reaches n u t := run_succ_eq_next

theorem Reaches.cons (h : step s = .next u) (hr : Reaches n u t) : Reaches (n + 1) s t :=
  reaches_succ.mpr ⟨u, h, hr⟩

theorem Reaches.single (h : step s = .next t) : Reaches 1 s t :=
  Reaches.cons (n := 0) h rfl

theorem Reaches.trans (h : Reaches m s t) (h' : Reaches n t u) : Reaches (m + n) s u := by
  induction m generalizing s with
  | zero =>
    obtain rfl := reaches_zero.mp h
    rwa [Nat.zero_add]
  | succ m ih =>
    obtain ⟨v, hv, hr⟩ := reaches_succ.mp h
    rw [Nat.succ_add]
    exact Reaches.cons hv (ih hr)

/-- An answer that a host cannot tell from a next state is a next state. -/
theorem SameAnswer.next {o : Result} (h : SameAnswer (.next s) o) : ∃ t, o = .next t ∧ SameToHost s t := by
  cases o with
  | next t => exact ⟨t, rfl, h⟩
  | fault | refused => exact h.elim

/-- Runs from states that are the same to the host stay so. -/
theorem SameToHost.reaches (h : SameToHost s t) (hr : Reaches n s u) : ∃ v, Reaches n t v ∧ SameToHost u v := by
  induction n generalizing s t with
  | zero =>
    obtain rfl := reaches_zero.mp hr
    exact ⟨t, rfl, h⟩
  | succ n ih =>
    obtain ⟨s', hs, hr⟩ := reaches_succ.mp hr
    obtain ⟨t', ht, h'⟩ := (hs ▸ h.step).next
    obtain ⟨v, hv, huv⟩ := ih h' hr
    exact ⟨v, Reaches.cons ht hv, huv⟩

/-- `n` steps from `s` to `t`, each from a busy state. -/
inductive Works : Nat → State → State → Prop
  | refl (s : State) : Works 0 s s
  | cons {n : Nat} {s u t : State} (hb : s.ph ≠ .idle) (h : step s = .next u) (hr : Works n u t) : Works (n + 1) s t

theorem Works.trans (h : Works m s t) (h' : Works n t u) : Works (m + n) s u := by
  induction h with
  | refl => rwa [Nat.zero_add]
  | cons hb hs _ ih =>
    rw [Nat.succ_add]
    exact .cons hb hs (ih h')

theorem Works.reaches (h : Works n s t) : Reaches n s t := by
  induction h with
  | refl => rfl
  | cons _ hs _ ih => exact Reaches.cons hs ih

/-- The host has no action left, or waits for the block to be idle. -/
def Waits (port : List HostAction) : Prop := port = [] ∨ ∃ rest, port = .awaitIdle :: rest

/-- While the host waits, a busy block takes the transition of its phase. -/
theorem step_of_waits (hw : Waits s.port) (hb : s.ph ≠ .idle) : step s = takeTransition s := by
  obtain hp | ⟨rest, hp⟩ := hw
  · exact step_of_port_nil hp
  · rw [step_of_port_cons hp]
    simp only [hostAct, if_neg hb, ← hp]

theorem Works.single (hw : Waits s.port) (hb : s.ph ≠ .idle) (h : takeTransition s = .next t) : Works 1 s t :=
  .cons hb ((step_of_waits hw hb).trans h) (.refl t)

/-! ### The encode path -/

theorem phaseESrch_of_match {d : DiscCode} (hd : tabDisc (s.pn ^^^ (genNibble s.config s.r).2) = some d) :
    phaseESrch s = .next (afterMatch
      (pushByte (applyMask (makeCodeword s.fails d) s.mask) (setR (genNibble s.config s.r).1 s))) := by
  have hv : tabValid (s.pn ^^^ (genNibble s.config s.r).2) = true := by rw [← tabDisc_isSome, hd]; rfl
  simp only [phaseESrch, drawNibble_snd, drawNibble_fst, hv, hd, if_true]

theorem phaseESrch_of_reject (hv : tabValid (s.pn ^^^ (genNibble s.config s.r).2) = false) :
    phaseESrch s = .next (afterReject (setR (genNibble s.config s.r).1 s)) := by
  simp [phaseESrch, hv]

/-- Transitions in the search phase of a busy block, the host waiting. -/
theorem works_eSrch (hw : Waits s.port) (hp : s.ph = .eSrch) (h : phaseESrch s = .next t) : Works 1 s t :=
  .single hw (by simp [hp]) (by simpa only [takeTransition, hp] using h)

/-- `s` in phase `E_SRCH` with `bytes` pushed since, and the register, mask and failure count given. -/
def searchAt (r : GenReg) (m : Byte) (f : BitVec 6) (bytes : List Byte) (s : State) : State :=
  { s with r := r, mask := m, fails := f, ph := .eSrch, out := s.out ++ bytes, rspOut := s.rspOut ++ bytes }

/-- The search after an escape: the sentinel pushed under the old mask, and a fresh mask (43_encode.md R95). -/
def searchAfterEscape (s : State) : State :=
  beginSearch (pushByte (applyMask escCodeword s.mask) (setR (genNibble s.config s.r).1 s))

theorem searchAt_searchAfterEscape (r : GenReg) (m : Byte) (f : BitVec 6) (bytes : List Byte) :
    searchAt r m f bytes (searchAfterEscape s) = searchAt r m f (applyMask escCodeword s.mask :: bytes) s := by
  simp [searchAt, searchAfterEscape]

/-- The 32nd rejection is followed by the escape. -/
theorem works_escape (hw : Waits s.port) (hp : s.ph = .eSrch)
    (hv : tabValid (s.pn ^^^ (genNibble s.config s.r).2) = false) (hf : s.fails = 31#6) :
    Works 2 s (searchAfterEscape s) := by
  have hreject : Works 1 s { setR (genNibble s.config s.r).1 s with fails := maxFail, ph := .eOvf } :=
    works_eSrch hw hp ((phaseESrch_of_reject hv).trans (congrArg _ (if_pos hf)))
  exact hreject.trans (.single hw (by simp) rfl)

/-- A search that ends by the big-step rule ends in the phase machine, with the same register and bytes
(43_encode.md R96). -/
theorem works_search {r' : GenReg} {bytes : List Byte} (fuel : Nat) (hw : Waits s.port) (hp : s.ph = .eSrch)
    (h : encodeSearch s.config fuel s.r s.pn s.mask s.fails = some (r', bytes)) :
    ∃ n m f, Works n s (afterMatch (searchAt r' m f bytes s)) := by
  induction fuel generalizing s bytes with
  | zero => simp [encodeSearch] at h
  | succ fuel ih =>
    simp only [encodeSearch] at h
    split_ifs at h with hvalid hfull
    · -- the nibble matches
      obtain ⟨d, hd, hpair⟩ := Option.map_eq_some_iff.mp h
      obtain ⟨rfl, rfl⟩ := Prod.mk.inj hpair
      refine ⟨1, s.mask, s.fails, works_eSrch hw hp ((phaseESrch_of_match hd).trans ?_)⟩
      simp [searchAt, pushByte, setR, ← hp]
    · -- the 32nd rejection of the attempt
      have hfails : s.fails = 31#6 := by simpa [maxFail] using eq_sub_of_add_eq hfull
      obtain ⟨⟨r'', rest⟩, hrest, hpair⟩ := Option.map_eq_some_iff.mp h
      obtain ⟨rfl, rfl⟩ := Prod.mk.inj hpair
      obtain ⟨n, m, f, hn⟩ := ih (s := searchAfterEscape s) hw rfl hrest
      rw [searchAt_searchAfterEscape] at hn
      exact ⟨2 + n, m, f, (works_escape hw hp (by simpa using hvalid) hfails).trans hn⟩
    · -- an earlier rejection
      have hfails : s.fails ≠ 31#6 := by rintro hf; exact hfull (by rw [hf]; rfl)
      have hreject : Works 1 s { setR (genNibble s.config s.r).1 s with fails := s.fails + 1#6 } :=
        works_eSrch hw hp ((phaseESrch_of_reject (by simpa using hvalid)).trans (congrArg _ (if_neg hfails)))
      obtain ⟨n, m, f, hn⟩ := ih (s := { setR (genNibble s.config s.r).1 s with fails := s.fails + 1#6 }) hw hp h
      exact ⟨1 + n, m, f, hreject.trans hn⟩

/-- A nibble encoded from phase `E_MASK` on, up to its match. -/
theorem works_encodeNibble {r' : GenReg} {bytes : List Byte} {fuel : Nat} (hw : Waits s.port) (hp : s.ph = .eMask)
    (h : encodeNibble s.config fuel s.r s.pn = some (r', bytes)) :
    ∃ n m f, Works n s (afterMatch (searchAt r' m f bytes s)) := by
  have hmask : Works 1 s (beginSearch s) := .single hw (by simp [hp]) (by simp only [takeTransition, hp, phaseEMask])
  obtain ⟨n, m, f, hn⟩ := works_search (s := beginSearch s) fuel hw rfl h
  exact ⟨1 + n, m, f, hmask.trans hn⟩

theorem afterMatch_of_lp (h : s.lp = true) : afterMatch s = { s with pn := s.ln, lp := false, ph := .eMask } :=
  if_pos h

theorem afterMatch_of_not_lp (h : s.lp = false) : afterMatch s = finishCommand s := by simp [afterMatch, h]

/-- `s` after an encode command that has pushed `bytes`, with what the command leaves in the registers it works with. -/
def encodeDone (r : GenReg) (bytes : List Byte) (m : Byte) (f : BitVec 6) (p l : Nibble) (s : State) : State :=
  { s with
    r := r, mask := m, fails := f, pn := p, ln := l, lp := false, ph := .idle
    out := s.out ++ bytes, rspOut := [], seen := s.seen ++ [.response 0x00#8 bytes] }

/-- `ENCB` meets its big-step rule (43_encode.md R96): the high nibble's match leads to the low nibble's mask, and the
low nibble's ends the command. -/
theorem works_encb {r' : GenReg} {bytes : List Byte} {b : Byte} {fuel : Nat} (hw : Waits s.port)
    (h : encodeByte s.config fuel s.r b = some (r', bytes)) :
    ∃ n m f, Works n (startEncode (highNibble b) (lowNibble b) true s)
      (encodeDone r' bytes m f (lowNibble b) (lowNibble b) s) := by
  obtain ⟨⟨r1, high⟩, hhigh, h⟩ := Option.bind_eq_some_iff.mp h
  obtain ⟨⟨r2, low⟩, hlow, hpair⟩ := Option.map_eq_some_iff.mp h
  obtain ⟨rfl, rfl⟩ := Prod.mk.inj hpair
  obtain ⟨n1, m1, f1, hw1⟩ :=
    works_encodeNibble (s := startEncode (highNibble b) (lowNibble b) true s) hw rfl hhigh
  rw [afterMatch_of_lp rfl] at hw1
  obtain ⟨n2, m2, f2, hw2⟩ := works_encodeNibble (s := { searchAt r1 m1 f1 high
    (startEncode (highNibble b) (lowNibble b) true s) with pn := lowNibble b, lp := false, ph := .eMask }) hw rfl hlow
  rw [afterMatch_of_not_lp rfl] at hw2
  refine ⟨n1 + n2, m2, f2, ?_⟩
  convert hw1.trans hw2 using 1
  simp [encodeDone, finishCommand, searchAt, respond, observe, startEncode]

end Sys2Proof.Machine
end

section
/-! The decode path against its big-step rule (44_decode.md R100, R104), from phase `D_MASK` on. -/

namespace Sys2Proof.Machine

variable {s : State}

/-! ### The big-step rule by the class of the codeword -/

theorem tabInv_eq_none {d : DiscCode} (h : ¬ d.toNat ≤ 4) : tabInv d = none := by
  simpa [h] using tabInv_isSome d

theorem exists_tabInv {d : DiscCode} (h : d.toNat ≤ 4) : ∃ e, tabInv d = some e :=
  Option.isSome_iff_exists.mp ((tabInv_isSome d).trans (decide_eq_true h))

theorem decodeCodewordBig_esc (c : Config) (d : Decoding) :
    decodeCodewordBig c escCodeword d = { d with r := discardNibbles c 32 d.r } := if_pos rfl

theorem decodeCodewordBig_malformed (c : Config) (d : Decoding) {cw : Byte} (hesc : cw ≠ escCodeword)
    (hinv : tabInv (discrepancyField cw) = none) :
    decodeCodewordBig c cw d = { d with malformedAt := some cw } := by
  simp only [decodeCodewordBig, if_neg hesc, hinv]

theorem decodeCodewordBig_match (c : Config) (d : Decoding) {cw : Byte} {e : Nibble} (hesc : cw ≠ escCodeword)
    (hinv : tabInv (discrepancyField cw) = some e) :
    decodeCodewordBig c cw d =
      frameBig ((genNibble c (discardNibbles c (failCountField cw).toNat d.r)).2 ^^^ e)
        { d with r := (genNibble c (discardNibbles c (failCountField cw).toNat d.r)).1 } := by
  simp only [decodeCodewordBig, if_neg hesc, hinv]

/-! ### What a `DECB` leaves behind -/

/-- What a decryption that is about to decode in `s` holds, no byte being pushed yet by the command in progress. -/
def decodingFrom (s : State) : Decoding := ⟨s.r, s.hl, s.nb, [], none⟩

/-- `s` after a `DECB` whose effect is `d`, with what the command leaves in the registers it works with. -/
def decodeDone (d : Decoding) (f : BitVec 6) (cw : Byte) (s : State) : State :=
  { s with
    r := d.r, hl := d.hl, nb := d.nb, fails := f, cw := cw, ph := .idle
    faulted := d.malformedAt.isSome, cause := if d.malformedAt.isSome then 1#2 else s.cause
    finfo := d.malformedAt.getD s.finfo
    out := s.out ++ d.out, rspOut := [], seen := s.seen ++ [.response 0x00#8 d.out] }

/-- Framing in the machine, at the end of a command that has pushed nothing else, is framing in the big-step rule. -/
theorem finishCommand_frameNibble (hf : s.faulted = false) (hr : s.rspOut = []) (p : Nibble) :
    finishCommand (frameNibble p s) = decodeDone (frameBig p (decodingFrom s)) s.fails s.cw s := by
  cases h : s.hl <;>
    simp [frameNibble, frameBig, decodingFrom, decodeDone, finishCommand, respond, observe, pushByte, h, hf, hr]

/-! ### The phases -/

/-- A discarding phase `p` with `k + 1` nibbles to go drops them all, and ends as its last visit does, by `fin`. -/
theorem works_discarding {p : Phase} {fin : State → State} (hb : p ≠ .idle)
    (htrans : ∀ v : State, v.ph = p →
      takeTransition v = .next (if v.fails = 1#6 then fin (discardOne v) else discardOne v))
    {k : Nat} (hk : k < 63) (hw : Waits s.port) (hp : s.ph = p) (hf : s.fails = BitVec.ofNat 6 (k + 1)) :
    Works (k + 1) s (fin { s with r := discardNibbles s.config (k + 1) s.r, fails := 0#6 }) := by
  have hbusy : s.ph ≠ .idle := hp ▸ hb
  induction k generalizing s with
  | zero =>
    have hlast : discardOne s = { s with r := (genNibble s.config s.r).1, fails := 0#6 } := by
      simp [discardOne, setR, hf]
    have hstep := (htrans s hp).trans (congrArg _ (if_pos hf))
    rw [hlast] at hstep
    exact .single hw hbusy hstep
  | succ k ih =>
    have hne : s.fails ≠ 1#6 := fun h1 => by
      have := congrArg BitVec.toNat (hf.symm.trans h1)
      simp at this; omega
    have hpred : (discardOne s).fails = BitVec.ofNat 6 (k + 1) := by
      rw [discardOne_fails, hf, BitVec.ofNat_add, BitVec.add_sub_cancel]
    have hstep := (htrans s hp).trans (congrArg _ (if_neg hne))
    exact .cons hbusy ((step_of_waits hw hbusy).trans hstep) (ih (s := discardOne s) (by omega) hw hp hpred hbusy)

/-- `D_ESC` drops 32 nibbles and ends the command (44_decode.md R102, R106). -/
theorem works_dEsc (hw : Waits s.port) (hp : s.ph = .dEsc) (hf : s.fails = maxFail) :
    Works 32 s (finishCommand { s with r := discardNibbles s.config 32 s.r, fails := 0#6 }) :=
  works_discarding (p := .dEsc) (by simp) (fun v hv => by simp only [takeTransition, hv, phaseDEsc])
    (by decide) hw hp hf

/-- A match codeword with fail_count `f` reaches `D_KEEP` with `f` nibbles dropped (44_decode.md R105, R106). -/
theorem works_startMatch (f : BitVec 5) (d : DiscCode) (hw : Waits s.port) :
    Works f.toNat (startMatch f d s)
      { s with r := discardNibbles s.config f.toNat s.r, cw := f ++ d, fails := 0#6, ph := .dKeep } := by
  by_cases hf : f = 0#5
  · subst hf
    rw [startMatch, if_pos rfl]
    exact .refl _
  · have hpos : f.toNat ≠ 0 := fun h => hf (BitVec.eq_of_toNat_eq h)
    obtain ⟨k, hk⟩ := Nat.exists_eq_succ_of_ne_zero hpos
    have hfails : f.setWidth 6 = BitVec.ofNat 6 (k + 1) := by rw [← BitVec.ofNat_toNat, hk]
    rw [startMatch, if_neg hf, hk]
    exact works_discarding (p := .dSkip) (fin := fun v => { v with ph := .dKeep }) (by simp)
      (fun v hv => by simp only [takeTransition, hv, phaseDSkip]) (by omega) hw rfl hfails

/-- `D_KEEP` corrects and frames one nibble and ends the command (44_decode.md R107). -/
theorem works_dKeep {e : Nibble} (hw : Waits s.port) (hp : s.ph = .dKeep) (hf : s.faulted = false)
    (hr : s.rspOut = []) (he : tabInv (discrepancyField s.cw) = some e) :
    Works 1 s (decodeDone
      (frameBig ((genNibble s.config s.r).2 ^^^ e) { decodingFrom s with r := (genNibble s.config s.r).1 })
      s.fails s.cw s) := by
  have hkeep : takeTransition s = .next (finishCommand (frameNibble ((genNibble s.config s.r).2 ^^^ e)
      (setR (genNibble s.config s.r).1 s))) := by
    simp only [takeTransition, hp, phaseDKeep, he, drawNibble_fst, drawNibble_snd]
  rw [finishCommand_frameNibble (s := setR (genNibble s.config s.r).1 s) hf hr] at hkeep
  exact .single hw (by simp [hp]) hkeep

/-! ### The phases meet the big-step rule -/

/-- A codeword run in phase `D_MASK` has the effect of the big-step rule when its command is over. -/
theorem works_codeword (hw : Waits s.port) (hp : s.ph = .dMask) (hf : s.faulted = false) (hr : s.rspOut = [])
    (cw : Byte) :
    ∃ v n f, exec (decodeCodeword cw) s = .next v ∧ n ≤ 32 ∧
      Works n v (decodeDone (decodeCodewordBig s.config cw (decodingFrom s)) f cw s) := by
  by_cases hesc : cw = escCodeword
  · -- the sentinel
    subst hesc
    refine ⟨_, 32, 0#6, (congrArg (exec · s) decodeCodeword_esc).trans (exec_cwEsc_dMask hp), le_rfl, ?_⟩
    convert works_dEsc (s := { s with cw := escCodeword, fails := maxFail, ph := .dEsc }) hw rfl rfl using 1
    simp [decodeCodewordBig_esc, decodingFrom, decodeDone, finishCommand, respond, observe, hf, hr]
  · have hexec := exec_decodeFields_dMask hp (failCountField cw) (discrepancyField cw)
    rw [← decodeCodeword_of_ne_esc hesc] at hexec
    by_cases hd : (discrepancyField cw).toNat ≤ 4
    · -- a match
      obtain ⟨e, he⟩ := exists_tabInv hd
      rw [classify, if_pos hd] at hexec
      have hskip := works_startMatch (s := s) (failCountField cw) (discrepancyField cw) hw
      rw [append_codewordFields] at hskip
      have hkeep := works_dKeep (s := { s with
        r := discardNibbles s.config (failCountField cw).toNat s.r, cw := cw, fails := 0#6, ph := .dKeep })
        hw rfl hf hr he
      rw [decodeCodewordBig_match s.config _ hesc he]
      exact ⟨_, (failCountField cw).toNat + 1, 0#6, hexec, by omega, hskip.trans hkeep⟩
    · -- a malformed codeword
      rw [classify, if_neg hd, malformed, append_codewordFields] at hexec
      refine ⟨_, 0, s.fails, hexec, Nat.zero_le _, ?_⟩
      rw [decodeCodewordBig_malformed s.config _ hesc (tabInv_eq_none hd)]
      convert Works.refl _ using 1
      simp [decodingFrom, decodeDone, raiseFault, enterFault, respond, observe, causeCode, faultInfo, hr]

/-- `DECB` meets its big-step rule (44_decode.md R104), in at most 33 transitions. -/
theorem works_decb (hw : Waits s.port) (hf : s.faulted = false) (c : Byte) :
    ∃ n m f cw, n ≤ 33 ∧ Works n { s with cw := c, ph := .dMask, rspOut := [] }
      (decodeDone (decodeByteBig s.config (decodingFrom s) c) f cw { s with mask := m }) := by
  have hstart : step { s with cw := c, ph := .dMask, rspOut := [] } =
      takeTransition { s with cw := c, ph := .dMask, rspOut := [] } := step_of_waits hw (by simp)
  obtain ⟨v, n, f, hexec, hn, hv⟩ :=
    works_codeword (s := (unmaskCodeword { s with cw := c, ph := .dMask, rspOut := [] }).1) hw rfl hf rfl
      (applyMask c (genMask s.config s.r).2)
  rw [decodeByteBig_of_unfaulted s.config c rfl]
  exact ⟨n + 1, (genMask s.config s.r).2, f, _, by omega, .cons (by simp) (hstart.trans hexec) hv⟩

end Sys2Proof.Machine
end

section
/-! Whole runs from reset (30_encoding.md R61): the host issues `INIT`, and then each command in turn when the one
before it is over. -/

namespace Sys2Proof.Machine

variable {s t u : State} {n : Nat}

/-! ### Issuing a command and waiting for its end -/

/-- The host issues a command as one word, which decodes to the command. -/
theorem issueOf_eq {i : Instr} (hi : i.isCommand = true) : ∃ w, issueOf i = [.issue w] ∧ decodeCommand w = i := by
  have hback : decodeWord (encode i) = i := decodeUndoesEncode i (wellFormed_of_isCommand hi)
  cases h : encode i with
  | command w => exact ⟨w, by simp only [issueOf, h], by rwa [h] at hback⟩
  | codeword cw =>
    rw [h] at hback
    have hcw := decodeCodeword_isCommand cw
    rw [show decodeCodeword cw = i from hback, hi] at hcw
    cases hcw

theorem reaches_issueOf {i : Instr} {rest : List HostAction} (hi : i.isCommand = true)
    (hport : s.port = issueOf i ++ rest) (hexec : exec i { s with port := rest } = .next t) : Reaches 1 s t := by
  obtain ⟨w, hw, hdec⟩ := issueOf_eq hi
  rw [hw] at hport
  rw [← hdec] at hexec
  exact .single ((step_issue hport).trans hexec)

/-- A command whose work ends in an idle state gives the port to the host's actions after it. -/
theorem reaches_runCommand {i : Instr} {rest : List HostAction} (hi : i.isCommand = true)
    (hport : s.port = runCommand i ++ rest) (hexec : exec i { s with port := .awaitIdle :: rest } = .next u)
    (hworks : Works n u t) (ht : t.ph = .idle) (htport : t.port = .awaitIdle :: rest) :
    ∃ m, Reaches m s { t with port := rest } := by
  have hissue : Reaches 1 s u := reaches_issueOf hi (hport.trans (List.append_assoc _ _ _)) hexec
  have hidle : step t = .next { t with port := rest } := (step_of_port_cons htport).trans (if_pos ht)
  exact ⟨_, (hissue.trans hworks.reaches).trans (.single hidle)⟩

/-! ### Encryption -/

theorem exec_encb (hs : ReadyToDraw s) (b : Byte) :
    exec (.encb b) s = .next (startEncode (highNibble b) (lowNibble b) true s) := by
  obtain ⟨⟨hp, hf⟩, hseed⟩ := hs
  rw [exec, execEncb, onCommand_ready hp hf, onSeeded_seeded hseed]

/-- The bytes of a plaintext, issued one after another, are encoded as the big-step rule says (43_encode.md R97). -/
theorem reaches_encodeBytes {fuel : Nat} {r' : GenReg} {plain cipher : List Byte} (hs : ReadyToDraw s)
    (hport : s.port = plain.flatMap fun b => runCommand (.encb b))
    (h : encodeBytes s.config fuel s.r plain = some (r', cipher)) :
    ∃ n t, Reaches n s t ∧ t.port = [] ∧ EndedWell t ∧ t.out = s.out ++ cipher ∧ t.r = r' := by
  induction plain generalizing s cipher with
  | nil =>
    obtain ⟨rfl, rfl⟩ := Prod.mk.inj (Option.some.inj h)
    obtain ⟨hready, -⟩ := hs
    exact ⟨0, s, rfl, hport, hready, (List.append_nil _).symm, rfl⟩
  | cons b plain ih =>
    obtain ⟨⟨r1, first⟩, hfirst, h⟩ := Option.bind_eq_some_iff.mp h
    obtain ⟨⟨r2, later⟩, hlater, hpair⟩ := Option.map_eq_some_iff.mp h
    obtain ⟨rfl, rfl⟩ := Prod.mk.inj hpair
    obtain ⟨k, m, f, hworks⟩ := works_encb
      (s := { s with port := .awaitIdle :: plain.flatMap fun b => runCommand (.encb b) }) (.inr ⟨_, rfl⟩) hfirst
    have hexec := exec_encb (s := { s with port := .awaitIdle :: plain.flatMap fun b => runCommand (.encb b) }) hs b
    obtain ⟨n1, hn1⟩ := reaches_runCommand rfl hport hexec hworks rfl rfl
    have ⟨⟨_, hf⟩, hseed⟩ := hs
    obtain ⟨n2, t, hn2, htport, hend, hout, hr⟩ := ih
      (s := { encodeDone r1 first m f (lowNibble b) (lowNibble b) s with
        port := plain.flatMap fun b => runCommand (.encb b) }) ⟨⟨rfl, hf⟩, hseed⟩ rfl hlater
    exact ⟨n1 + n2, t, hn1.trans hn2, htport, hend, hout.trans (List.append_assoc _ _ _), hr⟩

/-- `INIT`, accepted (40_generator.md R65). -/
theorem exec_init (hs : Ready s) (key : Arg) :
    exec (.init key) s = .next (respond 0x00#8 [] { s with r := seedOfKey key, seeded := true, hl := false }) := by
  obtain ⟨hp, hf⟩ := hs
  rw [exec, execInit, onCommand_ready hp hf]

/-- Settles O57: `INIT` seeds the block, and the commands of the plaintext meet their big-step rules in turn. -/
theorem encryptionRunMeetsBigStep : Obligations.EncryptionRunMeetsBigStep := by
  intro c key fuel r' plain cipher h
  rw [← seedOfKey_eq_extractLsb'] at h
  have hinit := reaches_issueOf (i := .init key) (s := { State.resetWith c with port := runEncrypt key plain })
    rfl rfl (exec_init ⟨rfl, rfl⟩ key)
  obtain ⟨n, t, hn, hport, hend, hout, hr⟩ := reaches_encodeBytes (s := respond 0x00#8 []
    { State.resetWith c with
      r := seedOfKey key, seeded := true, port := plain.flatMap fun b => runCommand (.encb b) })
    ⟨⟨rfl, rfl⟩, rfl⟩ rfl h
  exact ⟨1 + n, t, hinit.trans hn, hport, hend, hout, hr⟩

/-! ### Decryption -/

theorem exec_decb (hs : ReadyToDraw s) (c : Byte) :
    exec (.decb c) s = .next { s with cw := c, ph := .dMask, rspOut := [] } := by
  obtain ⟨⟨hp, hf⟩, hseed⟩ := hs
  rw [exec, execDecb, onCommand_ready hp hf, onSeeded_seeded hseed]

/-- A faulted block ignores `DECB` (60_exceptions.md R117). -/
theorem exec_decb_faulted (hp : s.ph = .idle) (hf : s.faulted = true) (c : Byte) :
    exec (.decb c) s = .next (respond 0x00#8 [] s) := by
  simp [exec, execDecb, onCommand, hp, hf]

theorem exec_drst (hs : Ready s) : exec .drst s = .next (respond 0x00#8 [] { s with hl := false }) := by
  obtain ⟨hp, hf⟩ := hs
  rw [exec, execDrst, onCommand_ready hp hf]

/-- The decryption `d` after the bytes `before`, which are none of its own. -/
def Decoding.after (before : List Byte) (d : Decoding) : Decoding := { d with out := before ++ d.out }

/-- The bytes pushed before play no part in decoding. -/
theorem frameBig_after (before : List Byte) (p : Nibble) (d : Decoding) :
    frameBig p (d.after before) = (frameBig p d).after before := by
  cases h : d.hl <;> simp [frameBig, Decoding.after, h]

theorem decodeCodewordBig_after (c : Config) (before : List Byte) (cw : Byte) (d : Decoding) :
    decodeCodewordBig c cw (d.after before) = (decodeCodewordBig c cw d).after before := by
  by_cases hesc : cw = escCodeword
  · rw [hesc, decodeCodewordBig_esc, decodeCodewordBig_esc]
    rfl
  · cases hinv : tabInv (discrepancyField cw) with
    | none =>
      rw [decodeCodewordBig_malformed c _ hesc hinv, decodeCodewordBig_malformed c _ hesc hinv]
      rfl
    | some e =>
      rw [decodeCodewordBig_match c _ hesc hinv, decodeCodewordBig_match c _ hesc hinv]
      exact frameBig_after before _ { d with r := _ }

theorem decodeByteBig_after (c : Config) (before : List Byte) (ct : Byte) (d : Decoding) :
    decodeByteBig c (d.after before) ct = (decodeByteBig c d ct).after before := by
  unfold decodeByteBig
  split
  · rename_i hd
    rw [if_pos (show d.malformedAt.isSome from hd)]
  · rename_i hd
    rw [if_neg (show ¬ d.malformedAt.isSome from hd)]
    exact decodeCodewordBig_after c before _ { d with r := _ }

/-- An idle seeded block holds what the decryption `d` holds between two bytes. -/
structure Holds (s : State) (d : Decoding) : Prop where
  ph : s.ph = .idle
  seeded : s.seeded = true
  faulted : s.faulted = d.malformedAt.isSome
  r : s.r = d.r
  hl : s.hl = d.hl
  nb : s.nb = d.nb
  out : s.out = d.out

/-- Before a fault, the decryption is what the block holds. -/
theorem Holds.eq_after {d : Decoding} (h : Holds s d) (hd : d.malformedAt = none) :
    d = (decodingFrom s).after s.out := by
  obtain ⟨r, hl, nb, out, m⟩ := d
  simp [decodingFrom, Decoding.after, h.r, h.hl, h.nb, h.out, ← hd]

/-- One ciphertext byte, issued and waited for, is decoded as the big-step rule says, or ignored after a fault. -/
theorem Holds.decb {d : Decoding} {c : Byte} {rest : List HostAction} (h : Holds s d)
    (hport : s.port = runCommand (.decb c) ++ rest) :
    ∃ n t, Reaches n s t ∧ t.port = rest ∧ t.config = s.config ∧ Holds t (decodeByteBig s.config d c) := by
  cases hd : d.malformedAt with
  | some cw =>
    have hf : s.faulted = true := by simp [h.faulted, hd]
    have hexec := exec_decb_faulted (s := { s with port := .awaitIdle :: rest }) h.ph hf c
    obtain ⟨n, hn⟩ := reaches_runCommand rfl hport hexec (.refl _) h.ph rfl
    refine ⟨n, _, hn, rfl, rfl, ?_⟩
    rw [show decodeByteBig s.config d c = d by simp [decodeByteBig, hd]]
    exact ⟨h.ph, h.seeded, h.faulted, h.r, h.hl, h.nb, h.out⟩
  | none =>
    have hf : s.faulted = false := by simp [h.faulted, hd]
    obtain ⟨k, m, f, cw, -, hworks⟩ :=
      works_decb (s := { s with port := .awaitIdle :: rest }) (.inr ⟨rest, rfl⟩) hf c
    have hexec := exec_decb (s := { s with port := .awaitIdle :: rest }) ⟨⟨h.ph, hf⟩, h.seeded⟩ c
    obtain ⟨n, hn⟩ := reaches_runCommand rfl hport hexec hworks rfl rfl
    refine ⟨n, _, hn, rfl, rfl, ?_⟩
    rw [h.eq_after hd, decodeByteBig_after]
    exact ⟨rfl, h.seeded, rfl, rfl, rfl, rfl, rfl⟩

/-- The bytes of a ciphertext, issued one after another, are decoded as the big-step rule says (44_decode.md R109). -/
theorem Holds.decodeBytes {d : Decoding} {cipher : List Byte} (h : Holds s d)
    (hport : s.port = cipher.flatMap fun c => runCommand (.decb c)) :
    ∃ n t, Reaches n s t ∧ t.port = [] ∧ Holds t (cipher.foldl (decodeByteBig s.config) d) := by
  induction cipher generalizing s d with
  | nil => exact ⟨0, s, rfl, hport, h⟩
  | cons c cipher ih =>
    obtain ⟨n1, t1, hn1, hport1, hconfig, h1⟩ := h.decb hport
    obtain ⟨n2, t, hn2, htport, ht⟩ := ih h1 hport1
    rw [hconfig] at ht
    exact ⟨n1 + n2, t, hn1.trans hn2, htport, ht⟩

/-- The block as reset leaves it, but that `NB`, which holds no value then, is given one. -/
def resetHolding (c : Config) (nb : Nibble) (port : List HostAction) : State :=
  { State.resetWith c with nb := nb, port := port }

/-- No host can see which value `NB` is given. -/
theorem sameToHost_resetHolding (c : Config) (nb : Nibble) (port : List HostAction) :
    SameToHost (resetHolding c nb port) { State.resetWith c with port := port } := by
  constructor <;> simp [resetHolding, State.resetWith]

/-- After `INIT` and `DRST` the block holds what a decryption starts from. -/
theorem reaches_decryptStart (c : Config) (key : Arg) (nb : Nibble) (cipher : List Byte) :
    ∃ t, Reaches 2 (resetHolding c nb (runDecrypt key cipher)) t ∧ t.config = c ∧
      t.port = (cipher.flatMap fun c => runCommand (.decb c)) ∧ Holds t ⟨seedOfKey key, false, nb, [], none⟩ := by
  have hinit := reaches_issueOf (i := .init key) (s := resetHolding c nb (runDecrypt key cipher)) rfl
    (List.append_assoc _ _ _) (exec_init ⟨rfl, rfl⟩ key)
  exact ⟨_, hinit.trans (reaches_issueOf (i := .drst) rfl rfl (exec_drst ⟨rfl, rfl⟩)), rfl, rfl,
    rfl, rfl, rfl, rfl, rfl, rfl, rfl⟩

/-- Settles O58: the run from a reset block that holds the big-step rule's `NB` ends as the rule does, and the run from
reset itself is the same to the host. -/
theorem decryptionRunMeetsBigStep : Obligations.DecryptionRunMeetsBigStep := by
  intro c key nb cipher d
  obtain ⟨s, hs, rfl, hsport, hstart⟩ := reaches_decryptStart c key nb cipher
  obtain ⟨n, t, hn, htport, ht⟩ := hstart.decodeBytes hsport
  obtain ⟨u, hu, hsame⟩ := (sameToHost_resetHolding _ nb _).reaches (hs.trans hn)
  rw [seedOfKey_eq_extractLsb'] at ht
  exact ⟨2 + n, u, hu, hsame.port ▸ htport, hsame.ph ▸ ht.ph, hsame.out ▸ ht.out, hsame.r (.inl ht.seeded) ▸ ht.r,
    hsame.hl ▸ ht.hl, hsame.faulted ▸ ht.faulted⟩

end Sys2Proof.Machine
end

section
/-! The generator step (40_generator.md R66, R68, R69): the register moves down one bit and the feedback bit enters at
the top, so a bit is read off the seed until it has moved out, and off an earlier feedback bit after that. -/

namespace Sys2Proof.Machine

variable (c : Config) (r : GenReg)

/-! ### One step -/

/-- The feedback bit, written out (40_generator.md R66). -/
theorem feedback_eq :
    feedback c r = ((r.getLsbD 0 ^^ r.getLsbD 1 ^^ r.getLsbD 8 ^^ r.getLsbD 9 ^^ r.getLsbD 15) ^^
      (r.getLsbD c.tapI.val && r.getLsbD c.tapJ.val)) := by
  rw [feedback, linearParity_eq]

theorem genNext_getLsbD_of_lt {i : Nat} (hi : i < 23) : (genNext c r).getLsbD i = r.getLsbD (i + 1) :=
  (genNext_getLsbD c r i (by omega)).trans (if_neg (by omega))

theorem genNext_getLsbD_top : (genNext c r).getLsbD 23 = feedback c r :=
  genNext_getLsbD c r 23 (by decide)

/-- When the feedback bit is 0 the step is a shift. -/
theorem genNext_of_feedback_false {r : GenReg} (hf : feedback c r = false) : genNext c r = r >>> 1 := by
  rw [genNext, hf]
  exact BitVec.or_zero

theorem genNext_zero : genNext c 0x000000#24 = 0x000000#24 :=
  genNext_of_feedback_false c (by simp [feedback_eq])

/-- With all bits set the parity of the five linear taps is 1, and so is the AND of the nonlinear ones. -/
theorem feedback_allOnes : feedback c (BitVec.allOnes 24) = false := by
  simp only [feedback_eq, BitVec.getLsbD_allOnes, Fin.isLt]
  decide

theorem genNext_allOnes : genNext c 0xFFFFFF#24 = 0x7FFFFF#24 :=
  genNext_of_feedback_false c (feedback_allOnes c)

/-- Settles O12: the step is read bit by bit, its corner states off their feedback bits. -/
theorem generatorStepFormula : Obligations.GeneratorStepFormula := by
  intro c r
  refine ⟨fun i hi => genNext_getLsbD_of_lt c r (Nat.lt_succ_of_le hi),
    (genNext_getLsbD_top c r).trans (feedback_eq c r), rfl, genNext_getLsbD_of_lt c r (by decide), ?_, ?_⟩
  · rw [genStep, genNext_zero]; rfl
  · rw [genStep, genNext_allOnes]; rfl

/-! ### Many steps -/

/-- A bit that the feedback has not reached in `t` steps is the seed's bit `t` places up. -/
theorem genNext_iterate_getLsbD {i t : Nat} (h : i + t < 24) :
    ((genNext c)^[t] r).getLsbD i = r.getLsbD (i + t) := by
  induction t generalizing i with
  | zero => rfl
  | succ t ih =>
    rw [Function.iterate_succ_apply', genNext_getLsbD_of_lt c _ (by omega), ih (by omega)]
    exact congrArg r.getLsbD (by omega)

/-- A feedback bit reaches bit 0 with the 23 steps after the one that brought it in. -/
theorem genNext_iterate_add_24_getLsbD_zero (t : Nat) :
    ((genNext c)^[t + 24] r).getLsbD 0 = feedback c ((genNext c)^[t] r) := by
  calc ((genNext c)^[t + 24] r).getLsbD 0
      = ((genNext c)^[23] (genNext c ((genNext c)^[t] r))).getLsbD 0 := by
        rw [← Function.iterate_succ_apply, genNext_iterate_add c r (Nat.add_comm 24 t)]
    _ = (genNext c ((genNext c)^[t] r)).getLsbD 23 := genNext_iterate_getLsbD c _ (by decide)
    _ = feedback c ((genNext c)^[t] r) := genNext_getLsbD_top c _

/-- Settles O13: a bit moves down one place a step, from the seed's place `t` or from the top. -/
theorem outputBitsAreSeedThenFeedback : Obligations.OutputBitsAreSeedThenFeedback := by
  intro c r t
  constructor
  · intro _ ht
    rw [genNext_iterate_getLsbD c r (by omega), Nat.zero_add]
  · intro ht
    obtain ⟨n, rfl⟩ := Nat.exists_eq_add_of_le' ht
    exact genNext_iterate_add_24_getLsbD_zero c r n

/-! ### The step undone -/

/-- Every bit but bit 0 is still in the register after the step, one place down. -/
theorem getLsbD_eq_genNext {i : Nat} (h0 : 0 < i) (h : i < 24) : r.getLsbD i = (genNext c r).getLsbD (i - 1) := by
  rw [genNext_getLsbD_of_lt c r (by omega), Nat.sub_add_cancel h0]

theorem getLsbD_tap_eq_genNext {tap : Fin 24} (h : tap ≠ 0) :
    r.getLsbD tap.val = (genNext c r).getLsbD (tap.val - 1) :=
  getLsbD_eq_genNext c r (Fin.pos_iff_ne_zero.mpr h) tap.isLt

/-- Bit 0 enters the feedback bit by an exclusive or with bits that are still there (40_generator.md R69); here R5's
demand that no nonlinear tap is at 0 is used. -/
theorem getLsbD_zero_eq_genNext :
    r.getLsbD 0 =
      ((genNext c r).getLsbD 23 ^^ (genNext c r).getLsbD 0 ^^ (genNext c r).getLsbD 7 ^^ (genNext c r).getLsbD 8 ^^
        (genNext c r).getLsbD 14 ^^
        ((genNext c r).getLsbD (c.tapI.val - 1) && (genNext c r).getLsbD (c.tapJ.val - 1))) := by
  have htop : (genNext c r).getLsbD 23 = _ := (genNext_getLsbD_top c r).trans (feedback_eq c r)
  rw [getLsbD_tap_eq_genNext c r c.tapI_ne_zero, getLsbD_tap_eq_genNext c r c.tapJ_ne_zero,
    getLsbD_eq_genNext c r (i := 1) (by decide) (by decide), getLsbD_eq_genNext c r (i := 8) (by decide) (by decide),
    getLsbD_eq_genNext c r (i := 9) (by decide) (by decide),
    getLsbD_eq_genNext c r (i := 15) (by decide) (by decide)] at htop
  have hcancel : ∀ b x y z w n : Bool, b = (((b ^^ x ^^ y ^^ z ^^ w) ^^ n) ^^ x ^^ y ^^ z ^^ w ^^ n) := by decide
  rw [htop]
  exact hcancel _ _ _ _ _ _

theorem genNext_injective : Function.Injective (genNext c) := by
  intro r r' h
  apply BitVec.eq_of_getLsbD_eq
  intro i hi
  obtain rfl | h0 := Nat.eq_zero_or_pos i
  · rw [getLsbD_zero_eq_genNext c r, getLsbD_zero_eq_genNext c r', h]
  · rw [getLsbD_eq_genNext c r h0 hi, getLsbD_eq_genNext c r' h0 hi, h]

/-- Settles O14: the register before the step is read off the one after it, and zero is the step of zero alone. -/
theorem generatorStepIsAPermutation : Obligations.GeneratorStepIsAPermutation := by
  intro c r
  refine ⟨fun i hi => (genNext_getLsbD_of_lt c r (Nat.lt_succ_of_le hi)).symm, getLsbD_zero_eq_genNext c r,
    fun r' h => genNext_injective c h, fun hr h => hr ?_⟩
  exact genNext_injective c (h.trans (genNext_zero c).symm)

end Sys2Proof.Machine
end

section
/-! The Generator Core's commands `NOP`, `INIT` and `STEP` (40_generator.md R65, R67, R70), accepted, ignored and turned
away. -/

namespace Sys2Proof.Machine

variable {s : State}

/-! ### The gates -/

/-- A faulted block ignores a command (60_exceptions.md R117). -/
theorem onCommand_faulted {body : State → Result} (hp : s.ph = .idle) (hf : s.faulted = true) :
    onCommand body s = .next (respond 0x00#8 [] s) := by
  simp [onCommand, hp, hf]

/-- An unseeded block answers a drawing command with a fault (60_exceptions.md R114). -/
theorem onSeeded_unseeded {op : OpCode} {body : State → Result} (hs : s.seeded = false) :
    onSeeded op body s = .next (raiseFault (.notSeeded op) s) := by
  simp [onSeeded, hs]

/-! ### The commands -/

/-- A faulted block ignores every command. -/
theorem exec_command_faulted {i : Instr} (hi : i.isCommand = true) (hp : s.ph = .idle) (hf : s.faulted = true) :
    exec i s = .next (respond 0x00#8 [] s) := by
  cases i
  case cwEsc | cwMatch0 | cwMatch1 | cwMatch2 | cwMatch3 | cwMatch4 | cwBad5 | cwBad6 | cwBad7 => cases hi
  all_goals simp only [exec, execNop, execInit, execStep, execNibble, execMask, execEncn, execEncb, execDecb, execDrst,
    execReserved9, execReservedA, execReservedB, execReservedC, execReservedD, execReservedE, execReservedF,
    onCommand_faulted hp hf]

/-- `NOP` answers the same whether it is accepted or ignored. -/
theorem exec_nop (hp : s.ph = .idle) : exec .nop s = .next (respond 0x00#8 [] s) := by
  cases hf : s.faulted with
  | true => exact exec_command_faulted rfl hp hf
  | false => rw [exec, execNop, onCommand_ready hp hf]

theorem exec_step (hs : ReadyToDraw s) :
    exec .step s = .next (respond (bitResult (s.r.getLsbD 1)) [] (setR (genNext s.config s.r) s)) := by
  obtain ⟨⟨hp, hf⟩, hseed⟩ := hs
  rw [exec, execStep, onCommand_ready hp hf, onSeeded_seeded hseed, drawBit_fst, drawBit_snd,
    genNext_getLsbD_of_lt _ _ (by decide)]

theorem exec_step_unseeded (hs : Ready s) (hseed : s.seeded = false) :
    exec .step s = .next (raiseFault (.notSeeded 0x2#4) s) := by
  obtain ⟨hp, hf⟩ := hs
  rw [exec, execStep, onCommand_ready hp hf, onSeeded_unseeded hseed]

/-- Settles O19. -/
theorem nopCommand : Obligations.NopCommand :=
  ⟨fun _ hop => decodeCommand_of_opField hop, fun _ hp => exec_nop hp⟩

/-- Settles O20: accepted, the seed is the low 24 bits of the key; on a faulted block the gate answers. -/
theorem initCommand : Obligations.InitCommand := by
  refine ⟨fun _ hop => decodeCommand_of_opField hop, fun s key hp => ⟨fun hf => ?_, exec_command_faulted rfl hp⟩⟩
  rw [exec_init ⟨hp, hf⟩, seedOfKey_eq_extractLsb']
  rfl

/-- Settles O22: one case for each gate, and past both the step of the generator bit by bit. -/
theorem stepCommandResult : Obligations.StepCommandResult := by
  refine ⟨fun _ hop => decodeCommand_of_opField hop, fun s hp =>
    ⟨exec_command_faulted rfl hp, fun hf hseed => exec_step_unseeded ⟨hp, hf⟩ hseed, fun hf hseed => ?_⟩⟩
  obtain ⟨hdown, htop, -⟩ := generatorStepFormula s.config s.r
  exact ⟨genNext s.config s.r, exec_step ⟨⟨hp, hf⟩, hseed⟩, hdown, htop⟩

end Sys2Proof.Machine
end

section
/-! The Nibble Assembler (41_nibble_assembler.md R75 to R79): a draw reads windows of the register's trajectory, which are
windows of the seed until its bits have moved out, and feedback bits after that; and the commands `NIBBLE` and `MASK`,
accepted, ignored and turned away. -/

namespace Sys2Proof.Machine

section Draws

variable (c : Config) (r : GenReg)

/-! ### Bits put together again -/

/-- A bit on top of a window makes it one longer. -/
theorem ofBool_getLsbD_append_extractLsb' {w : Nat} (x : BitVec w) (start len : Nat) :
    BitVec.ofBool (x.getLsbD (start + len)) ++ x.extractLsb' start len = x.extractLsb' start (1 + len) := by
  apply BitVec.eq_of_getLsbD_eq
  intro j hj
  simp only [BitVec.getLsbD_append, BitVec.getLsbD_extractLsb', BitVec.getLsbD_ofBool, hj]
  obtain hlt | rfl : j < len ∨ j = len := by omega
  · simp [hlt]
  · simp

/-- Four bits, each on top of the next, are a window of length 4. -/
theorem ofBool_getLsbD_append_four {w : Nat} (x : BitVec w) (start : Nat) :
    BitVec.ofBool (x.getLsbD (start + 3)) ++ BitVec.ofBool (x.getLsbD (start + 2)) ++
      BitVec.ofBool (x.getLsbD (start + 1)) ++ BitVec.ofBool (x.getLsbD start) = x.extractLsb' start 4 := by
  apply BitVec.eq_of_getLsbD_eq
  intro j hj
  match j with
  | 0 | 1 | 2 | 3 =>
    simp only [BitVec.getLsbD_append, BitVec.getLsbD_extractLsb', BitVec.getLsbD_ofBool]
    simp

/-! ### The nibble and the mask -/

/-- A nibble reads the register it is drawn from: none of its bits depends on the feedback of its own steps. -/
theorem genNibble_snd_eq_extractLsb' : (genNibble c r).2 = r.extractLsb' 1 4 := by
  rw [genNibble_snd, ← ofBool_getLsbD_append_four]
  simp only [genNext_getLsbD_of_lt, Nat.reduceLT, Nat.reduceAdd]

/-- The first bit generated is the lowest (41_nibble_assembler.md R75). -/
theorem genNibble_snd_getLsbD {i : Nat} (hi : i < 4) :
    (genNibble c r).2.getLsbD i = ((genNext c)^[i + 1] r).getLsbD 0 := by
  rw [genNibble_snd_eq_extractLsb', genNext_iterate_getLsbD c r (by omega)]
  simp [hi, Nat.add_comm]

theorem genMask_snd : (genMask c r).2 = (genNibble c r).2 ++ (genNibble c (genNibble c r).1).2 :=
  congrArg Prod.snd (genMask_eq c r)

/-! ### Later nibbles and the register after a nibble -/

/-- While the seed's bits fill the window, steps only move the window up. -/
theorem genNext_iterate_extractLsb' {start len t : Nat} (h : start + len + t ≤ 24) :
    ((genNext c)^[t] r).extractLsb' start len = r.extractLsb' (start + t) len := by
  apply BitVec.eq_of_getLsbD_eq
  intro i hi
  simp only [BitVec.getLsbD_extractLsb', hi, decide_true, Bool.true_and]
  rw [genNext_iterate_getLsbD c r (by omega), Nat.add_right_comm]

/-- The feedback bit that the step after the first `t` brings in is at the top, and `n` steps later `n` places down. -/
theorem genNext_iterate_getLsbD_of_feedback {i n t : Nat} (h : i + n = 23) :
    ((genNext c)^[n + (t + 1)] r).getLsbD i = feedback c ((genNext c)^[t] r) := by
  rw [Function.iterate_add_apply, genNext_iterate_getLsbD c _ (by omega), h, Function.iterate_succ_apply',
    genNext_getLsbD_top]

/-- The first five nibbles are windows of the seed. -/
theorem genNibble_snd_discardNibbles {n : Nat} (hn : n ≤ 4) :
    (genNibble c (discardNibbles c n r)).2 = r.extractLsb' (1 + 4 * n) 4 := by
  rw [discardNibbles_iterate, genNibble_snd_eq_extractLsb', genNext_iterate_extractLsb' c r (by omega)]

theorem genMask_snd_eq_extractLsb' : (genMask c r).2 = r.extractLsb' 1 4 ++ r.extractLsb' 5 4 := by
  rw [genMask_snd, genNibble_snd_eq_extractLsb']
  exact congrArg (r.extractLsb' 1 4 ++ ·) (genNibble_snd_discardNibbles c r (n := 1) (by decide))

/-- The sixth nibble holds the seed's last three bits and the first feedback bit. -/
theorem genNibble_snd_discardNibbles_five :
    (genNibble c (discardNibbles c 5 r)).2 = BitVec.ofBool (feedback c r) ++ r.extractLsb' 21 3 := by
  have hlow : ((genNext c)^[20] r).extractLsb' 1 3 = r.extractLsb' 21 3 := genNext_iterate_extractLsb' c r (by decide)
  have htop : ((genNext c)^[20] r).getLsbD 4 = feedback c r :=
    genNext_iterate_getLsbD_of_feedback c r (n := 19) (t := 0) (by decide)
  rw [discardNibbles_iterate, genNibble_snd_eq_extractLsb', ← hlow, ← htop]
  exact (ofBool_getLsbD_append_extractLsb' _ 1 3).symm

/-- After a nibble its four feedback bits stand at the top, the last one highest, over the seed's other bits. -/
theorem genNibble_fst_eq_append :
    (genNibble c r).1 =
      BitVec.ofBool (feedback c ((genNext c)^[3] r)) ++ BitVec.ofBool (feedback c ((genNext c)^[2] r)) ++
        BitVec.ofBool (feedback c (genNext c r)) ++ BitVec.ofBool (feedback c r) ++ r.extractLsb' 4 20 := by
  have hlow : ((genNext c)^[4] r).extractLsb' 0 20 = r.extractLsb' 4 20 := genNext_iterate_extractLsb' c r (by decide)
  have h20 : ((genNext c)^[4] r).getLsbD 20 = feedback c r :=
    genNext_iterate_getLsbD_of_feedback c r (n := 3) (t := 0) (by decide)
  have h21 : ((genNext c)^[4] r).getLsbD 21 = feedback c (genNext c r) :=
    genNext_iterate_getLsbD_of_feedback c r (n := 2) (t := 1) (by decide)
  have h22 : ((genNext c)^[4] r).getLsbD 22 = feedback c ((genNext c)^[2] r) :=
    genNext_iterate_getLsbD_of_feedback c r (n := 1) (t := 2) (by decide)
  have h23 : ((genNext c)^[4] r).getLsbD 23 = feedback c ((genNext c)^[3] r) :=
    genNext_iterate_getLsbD_of_feedback c r (n := 0) (t := 3) (by decide)
  rw [genNibble_fst_iterate, ← h20, ← h21, ← h22, ← h23, ← hlow, ofBool_getLsbD_append_four _ 20]
  exact (BitVec.extractLsb'_append_extractLsb' (w := 4) (len := 20)).symm

end Draws

/-- Settles O15: the registers are runs of steps, and the bits and halves stand as the draws put them together. -/
theorem nibbleAndMaskOrder : Obligations.NibbleAndMaskOrder := fun c r =>
  ⟨genNibble_fst_iterate c r, fun _ => genNibble_snd_getLsbD c r, genMask_fst_iterate c r, genMask_snd c r⟩

/-- Settles O16: the first five nibbles and the mask are the seed's bits, and feedback bits come after them. -/
theorem nibbleAndMaskClosedForms : Obligations.NibbleAndMaskClosedForms := fun c r =>
  ⟨genNibble_snd_eq_extractLsb' c r, genMask_snd_eq_extractLsb' c r,
    genNibble_snd_discardNibbles c r (n := 1) (by decide), genNibble_snd_discardNibbles c r (n := 2) (by decide),
    genNibble_snd_discardNibbles c r (n := 3) (by decide), genNibble_snd_discardNibbles c r (n := 4) (by decide),
    genNibble_snd_discardNibbles_five c r, genNibble_fst_eq_append c r⟩

/-! ### The commands -/

section Commands

variable {s : State}

/-- Past both gates a drawing command runs its body. -/
theorem onDraw_ready {op : OpCode} {body : State → Result} (hs : ReadyToDraw s) :
    onCommand (onSeeded op body) s = body s := by
  obtain ⟨⟨hp, hf⟩, hseed⟩ := hs
  rw [onCommand_ready hp hf, onSeeded_seeded hseed]

/-- Without a seed a drawing command is turned away at the second gate (60_exceptions.md R114). -/
theorem onDraw_unseeded {op : OpCode} {body : State → Result} (hs : Ready s) (hseed : s.seeded = false) :
    onCommand (onSeeded op body) s = .next (raiseFault (.notSeeded op) s) := by
  obtain ⟨hp, hf⟩ := hs
  rw [onCommand_ready hp hf, onSeeded_unseeded hseed]

/-- The result of a nibble has its high bits 0 (30_encoding.md R52). -/
theorem nibbleResult_eq_append (k : Nibble) : nibbleResult k = 0#4 ++ k :=
  BitVec.setWidth_eq_append (by decide)

theorem exec_nibble (hs : ReadyToDraw s) :
    exec .nibble s =
      .next (respond (nibbleResult (s.r.extractLsb' 1 4)) [] (setR ((genNext s.config)^[4] s.r) s)) := by
  rw [exec, execNibble, onDraw_ready hs, drawNibble_fst, drawNibble_snd, genNibble_fst_iterate,
    genNibble_snd_eq_extractLsb']

theorem exec_mask (hs : ReadyToDraw s) :
    exec .mask s =
      .next (respond (s.r.extractLsb' 1 4 ++ s.r.extractLsb' 5 4) [] (setR ((genNext s.config)^[8] s.r) s)) := by
  rw [exec, execMask, onDraw_ready hs, drawMask_fst, drawMask_snd, genMask_fst_iterate, genMask_snd_eq_extractLsb']

end Commands

/-- Settles O23: one case for each gate, and past both the nibble in its closed form. -/
theorem nibbleCommandResult : Obligations.NibbleCommandResult := by
  refine ⟨fun _ hop => decodeCommand_of_opField hop, fun s hp =>
    ⟨exec_command_faulted rfl hp, fun hf => onDraw_unseeded ⟨hp, hf⟩, fun hf hseed => ?_⟩⟩
  rw [exec_nibble ⟨⟨hp, hf⟩, hseed⟩, nibbleResult_eq_append]
  rfl

/-- Settles O24: one case for each gate, and past both the mask in its closed form. -/
theorem maskCommandResult : Obligations.MaskCommandResult :=
  ⟨fun _ hop => decodeCommand_of_opField hop, fun _ hp =>
    ⟨exec_command_faulted rfl hp, fun hf => onDraw_unseeded ⟨hp, hf⟩, fun hf hseed => exec_mask ⟨⟨hp, hf⟩, hseed⟩⟩⟩

end Sys2Proof.Machine
end

section
/-! The Match Tables (42_match_tables.md R80 to R83): their entries, the two inverse laws, and the plaintext nibble
that `INV` gives back. -/

namespace Sys2Proof.Machine

/-! ### The entries -/

/-- The matching patterns (42_match_tables.md R80). -/
theorem tabValid_iff_mem (h : Nibble) : tabValid h = true ↔ h ∈ [0x0#4, 0x1#4, 0x2#4, 0x4#4, 0x8#4] := by
  simp [tabValid, or_assoc]

/-- A pattern matches when at most one of its bits is set (42_match_tables.md R80). -/
theorem tabValid_iff_popcount_le_one (h : Nibble) :
    tabValid h = true ↔ ((List.range 4).filter fun i => h.getLsbD i).length ≤ 1 := by
  revert h; decide

/-- The pattern of bit `i` alone has the code `i + 1` (42_match_tables.md R81). -/
theorem tabDisc_one_shiftLeft {i : Nat} (hi : i < 4) : tabDisc (1#4 <<< i) = some (BitVec.ofNat 3 (i + 1)) := by
  revert i; decide

theorem tabDisc_eq_none {h : Nibble} (hv : tabValid h = false) : tabDisc h = none := by
  simpa [hv] using tabDisc_isSome h

/-- Settles O17: `DISC` is read entry by entry, and each entry of `INV` is the one of `DISC` turned round. -/
theorem matchTableContents : Obligations.MatchTableContents :=
  ⟨tabValid_iff_mem, tabValid_iff_popcount_le_one, rfl, fun _ => tabDisc_one_shiftLeft, fun _ => tabDisc_eq_none,
    tabInv_of_tabDisc _ _ rfl, fun _ hi => tabInv_of_tabDisc _ _ (tabDisc_one_shiftLeft hi),
    tabInv_eq_none (by decide), tabInv_eq_none (by decide), tabInv_eq_none (by decide)⟩

/-! ### The inverse laws -/

/-- `DISC` undoes `INV`. -/
theorem tabDisc_of_tabInv {d : DiscCode} {h : Nibble} (he : tabInv d = some h) : tabDisc h = some d := by
  revert d h; decide

/-- A pattern that has a code matches. -/
theorem tabValid_of_tabDisc {h : Nibble} {d : DiscCode} (hd : tabDisc h = some d) : tabValid h = true := by
  rw [← tabDisc_isSome, hd, Option.isSome_some]

theorem exists_tabDisc {h : Nibble} (hv : tabValid h = true) : ∃ d, tabDisc h = some d :=
  Option.isSome_iff_exists.mp ((tabDisc_isSome h).trans hv)

/-- Settles O18: `INV` and `DISC` undo each other where they have entries, so a matched difference comes back from its
code and the keystream nibble cancels it. -/
theorem matchTablesAreConsistent : Obligations.MatchTablesAreConsistent := by
  refine ⟨fun c hc => ?inverseThenCode, fun h hv => ?codeThenInverse, fun p k hv => ?reconstruction⟩
  case inverseThenCode =>
    obtain ⟨h, hh⟩ := exists_tabInv hc
    have hd : tabDisc h = some c := tabDisc_of_tabInv hh
    exact ⟨h, hh, hd, tabValid_of_tabDisc hd⟩
  case codeThenInverse =>
    obtain ⟨c, hc⟩ := exists_tabDisc hv
    exact ⟨c, hc, tabInv_of_tabDisc h c hc⟩
  case reconstruction =>
    obtain ⟨d, hd⟩ := exists_tabDisc hv
    have hcancel : k ^^^ (p ^^^ k) = p := by rw [BitVec.xor_comm, BitVec.xor_assoc, BitVec.xor_self, BitVec.xor_zero]
    exact ⟨d, p ^^^ k, hd, tabInv_of_tabDisc _ d hd, hcancel⟩

end Sys2Proof.Machine
end

section
/-! The machine's invariant, phase by phase. Over `PhaseInv` each move of the block is one lemma: a block past the gates
is seeded and without a fault (`Running`), which no phase but a malformed codeword changes, so that only what the phase
entered asks for is left to show. -/

namespace Sys2Proof.Machine

variable {s t : State}

/-! ### The invariant by phase -/

/-- No low nibble waits, and no byte has been pushed whose response is to come. -/
abbrev NothingPends (s : State) : Prop := s.lp = false ∧ s.rspOut = []

/-- What the invariant asks of the working registers in each phase (43_encode.md R99; 44_decode.md R105, R106). -/
def PhaseInv (s : State) : Prop :=
  match s.ph with
  | .idle | .dMask => NothingPends s
  | .eMask => True
  | .eSrch => s.fails.toNat ≤ 31
  | .eOvf => s.fails = 32#6
  | .dEsc => (1 ≤ s.fails.toNat ∧ s.fails.toNat ≤ 32) ∧ s.cw = escCodeword ∧ NothingPends s
  | .dSkip => (1 ≤ s.fails.toNat ∧ s.fails.toNat ≤ 31) ∧ (discrepancyField s.cw).toNat ≤ 4 ∧ NothingPends s
  | .dKeep => s.fails = 0#6 ∧ (discrepancyField s.cw).toNat ≤ 4 ∧ NothingPends s

theorem machineInv_iff_phaseInv :
    MachineInv s ↔ FaultRegistersAgree s ∧ UnseededIsIdle s ∧ PhaseInv s := by
  cases hp : s.ph <;> simp [MachineInv, FailsInRange, CodewordInClass, OnlyEncodePends, InEncode, PhaseInv, hp]

/-- Past the gates of a drawing command: seeded, and no fault taken (60_exceptions.md R112, R114). It speaks of four
registers only, so that it holds after whatever writes the others as it held before. -/
def Running (s : State) : Prop := s.seeded = true ∧ s.faulted = false ∧ s.cause = 0#2 ∧ s.finfo = 0x00#8

theorem Running.machineInv (h : Running s) (hphase : PhaseInv s) : MachineInv s := by
  obtain ⟨hseeded, hfaulted, hcause, hfinfo⟩ := h
  refine machineInv_iff_phaseInv.mpr ⟨⟨fun _ => ⟨hcause, hfinfo⟩, fun hf => ?_⟩, fun hs => ?_, hphase⟩
  · simp [hfaulted] at hf
  · simp [hseeded] at hs

/-- A command that draws is accepted by a running block. -/
theorem MachineInv.running_of_ready (h : MachineInv s) (hr : Ready s) (hs : s.seeded = true) : Running s := by
  obtain ⟨⟨hclear, -⟩, -⟩ := h
  exact ⟨hs, hr.2, hclear hr.2⟩

/-- A busy block is running. -/
theorem MachineInv.running_of_busy (h : MachineInv s) (hb : s.ph ≠ .idle) : Running s := by
  obtain ⟨⟨hclear, htaken⟩, hunseeded, -⟩ := h
  have hf : s.faulted = false := eq_false_of_ne_true fun hf => hb (htaken hf).2
  have hs : s.seeded = true := eq_true_of_ne_false fun hs => hb (hunseeded hs).1
  exact ⟨hs, hf, hclear hf⟩

theorem MachineInv.phaseInv (h : MachineInv s) : PhaseInv s := by
  obtain ⟨-, -, hphase⟩ := machineInv_iff_phaseInv.mp h
  exact hphase

theorem MachineInv.hl_of_unseeded (h : MachineInv s) (hs : s.seeded = false) : s.hl = false := by
  obtain ⟨-, hunseeded, -⟩ := h
  exact (hunseeded hs).2

theorem MachineInv.nothingPends (h : MachineInv s) (hp : ¬ InEncode s) : NothingPends s := by
  obtain ⟨-, -, -, -, hpends⟩ := h
  exact hpends hp

/-! ### The operations that end a command -/

theorem machineInv_resetInput : MachineInv (resetInput s) :=
  machineInv_iff_phaseInv.mpr ⟨⟨fun _ => ⟨rfl, rfl⟩, nofun⟩, fun _ => ⟨rfl, rfl⟩, rfl, rfl⟩

/-- Every fault has a cause (60_exceptions.md R112). -/
theorem causeCode_ne_zero (f : BlockFault) : causeCode f ≠ 0#2 := by
  cases f <;> simp [causeCode]

theorem machineInv_raiseFault {f : BlockFault} (hhl : s.seeded = false → s.hl = false) (hpends : NothingPends s) :
    MachineInv (raiseFault f s) :=
  machineInv_iff_phaseInv.mpr
    ⟨⟨nofun, fun _ => ⟨causeCode_ne_zero f, rfl⟩⟩, fun hs => ⟨rfl, hhl hs⟩, hpends⟩

theorem machineInv_finishCommand (h : Running s) (hlp : s.lp = false) : MachineInv (finishCommand s) :=
  Running.machineInv h ⟨hlp, rfl⟩

/-! ### The encode path -/

theorem machineInv_beginSearch (h : Running s) : MachineInv (beginSearch s) :=
  Running.machineInv h (Nat.zero_le 31)

theorem machineInv_afterMatch (h : Running s) : MachineInv (afterMatch s) := by
  cases hlp : s.lp with
  | true =>
    rw [afterMatch_of_lp hlp]
    exact Running.machineInv h trivial
  | false =>
    rw [afterMatch_of_not_lp hlp]
    exact machineInv_finishCommand h hlp

theorem afterReject_of_full (h : s.fails = 31#6) : afterReject s = { s with fails := maxFail, ph := .eOvf } := if_pos h

theorem afterReject_of_not_full (h : s.fails ≠ 31#6) : afterReject s = { s with fails := s.fails + 1#6 } := if_neg h

theorem machineInv_afterReject (h : Running s) (hp : s.ph = .eSrch) (hf : s.fails.toNat ≤ 31) :
    MachineInv (afterReject s) := by
  by_cases hfull : s.fails = 31#6
  · rw [afterReject_of_full hfull]
    exact Running.machineInv h rfl
  · rw [afterReject_of_not_full hfull]
    refine Running.machineInv h ?_
    simp only [PhaseInv, hp]
    bv_omega

/-! ### The decode path -/

/-- The 32 nibbles to discard after the sentinel. -/
theorem maxFail_inRange : 1 ≤ maxFail.toNat ∧ maxFail.toNat ≤ 32 := by decide

theorem machineInv_startMatch {f : BitVec 5} {d : DiscCode} (h : Running s) (hpends : NothingPends s)
    (hd : d.toNat ≤ 4) : MachineInv (startMatch f d s) := by
  have hclass : (discrepancyField (f ++ d)).toNat ≤ 4 := by rwa [discrepancyField_append]
  unfold startMatch
  split
  · exact Running.machineInv h ⟨rfl, hclass, hpends⟩
  · rename_i hf
    have hrange : 1 ≤ (f.setWidth 6).toNat ∧ (f.setWidth 6).toNat ≤ 31 := by bv_omega
    exact Running.machineInv h ⟨hrange, hclass, hpends⟩

@[simp] theorem frameNibble_lp (p : Nibble) : (frameNibble p s).lp = s.lp := by
  unfold frameNibble; split <;> rfl

theorem running_frameNibble {p : Nibble} (h : Running s) : Running (frameNibble p s) := by
  unfold frameNibble
  split <;> exact h

/-- A visit of `D_ESC`, the last one ending the command (44_decode.md R106). -/
theorem machineInv_discardsEscaped (h : MachineInv s) (hp : s.ph = .dEsc) :
    MachineInv (if s.fails = 1#6 then finishCommand (discardOne s) else discardOne s) := by
  have hrun := h.running_of_busy (by simp [hp])
  have hphase := h.phaseInv
  simp only [PhaseInv, hp] at hphase
  obtain ⟨hrange, hcw, hpends⟩ := hphase
  split
  · exact machineInv_finishCommand hrun hpends.1
  · refine Running.machineInv hrun ?_
    simp only [PhaseInv, discardOne_ph, hp]
    exact ⟨by simp only [discardOne_fails]; bv_omega, hcw, hpends⟩

/-- A visit of `D_SKIP`, the last one leading to `D_KEEP` (44_decode.md R106). -/
theorem machineInv_discardsRejected (h : MachineInv s) (hp : s.ph = .dSkip) :
    MachineInv (if s.fails = 1#6 then { discardOne s with ph := .dKeep } else discardOne s) := by
  have hrun := h.running_of_busy (by simp [hp])
  have hphase := h.phaseInv
  simp only [PhaseInv, hp] at hphase
  obtain ⟨hrange, hclass, hpends⟩ := hphase
  split
  · rename_i hlast
    have hzero : s.fails - 1#6 = 0#6 := by rw [hlast]; rfl
    exact Running.machineInv hrun ⟨hzero, hclass, hpends⟩
  · refine Running.machineInv hrun ?_
    simp only [PhaseInv, discardOne_ph, hp]
    exact ⟨by simp only [discardOne_fails]; bv_omega, hclass, hpends⟩

/-! ### Every move -/

/-- The invariant says nothing of `R`, `MASK`, `OUT`, the port and the host's record, so a move that writes only these
keeps it as it stands. -/
theorem Move.keepsInv (hm : Move s t) (h : MachineInv s) : MachineInv t := by
  have hrun (hb : s.ph ≠ .idle) : Running s := h.running_of_busy hb
  cases hm with
  | stays | shows | answers | drawsBit | drawsNibble | drawsMask => exact h
  | resets => exact machineInv_resetInput
  | inits =>
    obtain ⟨hfault, -, hfails, hcw, hpends⟩ := h
    exact ⟨hfault, nofun, hfails, hcw, hpends⟩
  | clearsFraming =>
    obtain ⟨hfault, hunseeded, hfails, hcw, hpends⟩ := h
    exact ⟨hfault, fun hs => ⟨(hunseeded hs).1, rfl⟩, hfails, hcw, hpends⟩
  | startsEncode p l b hr hs => exact Running.machineInv (h.running_of_ready hr hs) trivial
  | startsDecode c hr hs =>
    have ⟨hlp, _⟩ := h.nothingPends (by simp [hr.1])
    exact Running.machineInv (h.running_of_ready hr hs) ⟨hlp, rfl⟩
  | lacksSeed op hr hs => exact machineInv_raiseFault h.hl_of_unseeded (h.nothingPends (by simp [hr.1]))
  | isIllegal op hr => exact machineInv_raiseFault h.hl_of_unseeded (h.nothingPends (by simp [hr.1]))
  | drawsFirstMask hp => exact machineInv_beginSearch (hrun (by simp [hp]))
  | matchesNibble d hp hd => exact machineInv_afterMatch (hrun (by simp [hp]))
  | rejectsNibble hp hv =>
    have hfails : s.fails.toNat ≤ 31 := by simpa only [PhaseInv, hp] using h.phaseInv
    exact machineInv_afterReject (hrun (by simp [hp])) hp hfails
  | escapes hp => exact machineInv_beginSearch (hrun (by simp [hp]))
  | findsEscape hp =>
    exact Running.machineInv (hrun (by simp [hp])) ⟨maxFail_inRange, rfl, h.nothingPends (by simp [hp])⟩
  | findsMatch f d hd hp =>
    exact machineInv_startMatch (hrun (by simp [hp])) (h.nothingPends (by simp [hp])) hd
  | findsMalformed f d hd hp => exact machineInv_raiseFault h.hl_of_unseeded (h.nothingPends (by simp [hp]))
  | discardsEscaped hp => exact machineInv_discardsEscaped h hp
  | discardsRejected hp => exact machineInv_discardsRejected h hp
  | keepsNibble e hp he =>
    have ⟨hlp, _⟩ := h.nothingPends (by simp [hp])
    exact machineInv_finishCommand (running_frameNibble (hrun (by simp [hp]))) ((frameNibble_lp _).trans hlp)

/-- Settles O45: a step is a move from a state that differs in its port only, and every move keeps the invariant. -/
theorem invariantKept : Obligations.InvariantKept := by
  intro s t h hstep
  obtain ⟨p, hm⟩ := step_next hstep
  exact hm.keepsInv h

end Sys2Proof.Machine
end

section
/-! No step stops under the invariant, but a command issued to a busy block (70_reset_and_hazards.md R135): every
command is turned away by its gate or answers, and every phase answers, the invariant giving `D_KEEP` its `INV` entry. -/

namespace Sys2Proof.Machine

variable {s : State}

/-! ### Commands -/

theorem onSeeded_isNext {op : OpCode} {body : State → Result} (hb : ∀ u, ∃ t, body u = .next t) (s : State) :
    ∃ t, onSeeded op body s = .next t := by
  cases hs : s.seeded with
  | true => rw [onSeeded_seeded hs]; exact hb s
  | false => exact ⟨_, onSeeded_unseeded hs⟩

/-- Every command is its gate before a body that never stops. -/
theorem exec_command_eq_onCommand {i : Instr} (hi : i.isCommand = true) :
    ∃ body : State → Result, (∀ u, ∃ t, body u = .next t) ∧ ∀ s, exec i s = onCommand body s := by
  cases i
  case cwEsc | cwMatch0 | cwMatch1 | cwMatch2 | cwMatch3 | cwMatch4 | cwBad5 | cwBad6 | cwBad7 => cases hi
  case step | nibble | mask | encn | encb | decb => exact ⟨_, onSeeded_isNext fun _ => ⟨_, rfl⟩, fun _ => rfl⟩
  all_goals exact ⟨_, fun _ => ⟨_, rfl⟩, fun _ => rfl⟩

theorem exec_command_busy {i : Instr} (hi : i.isCommand = true) (hb : s.ph ≠ .idle) :
    exec i s = .refused .commandWhileBusy := by
  obtain ⟨body, -, hexec⟩ := exec_command_eq_onCommand hi
  exact (hexec s).trans (if_pos hb)

theorem exec_command_isNext {i : Instr} (hi : i.isCommand = true) (hp : s.ph = .idle) : ∃ t, exec i s = .next t := by
  obtain ⟨body, hbody, hexec⟩ := exec_command_eq_onCommand hi
  rw [hexec s]
  cases hf : s.faulted with
  | true => exact ⟨_, onCommand_faulted hp hf⟩
  | false => rw [onCommand_ready hp hf]; exact hbody s

/-! ### Phases -/

theorem takeTransition_idle (hp : s.ph = .idle) : takeTransition s = .next s := by simp only [takeTransition, hp]

theorem takeTransition_eMask (hp : s.ph = .eMask) : takeTransition s = .next (beginSearch s) := by
  simp only [takeTransition, hp, phaseEMask]

theorem takeTransition_eSrch (hp : s.ph = .eSrch) : takeTransition s = phaseESrch s := by
  simp only [takeTransition, hp]

theorem takeTransition_eOvf (hp : s.ph = .eOvf) :
    takeTransition s = .next (beginSearch (pushByte (applyMask escCodeword s.mask) s)) := by
  simp only [takeTransition, hp, phaseEOvf]

theorem takeTransition_dMask (hp : s.ph = .dMask) :
    takeTransition s = exec (decodeCodeword (unmaskCodeword s).2) (unmaskCodeword s).1 := by
  simp only [takeTransition, hp, phaseDMask]

theorem takeTransition_dEsc (hp : s.ph = .dEsc) :
    takeTransition s = .next (if s.fails = 1#6 then finishCommand (discardOne s) else discardOne s) := by
  simp only [takeTransition, hp, phaseDEsc]

theorem takeTransition_dSkip (hp : s.ph = .dSkip) :
    takeTransition s = .next (if s.fails = 1#6 then { discardOne s with ph := .dKeep } else discardOne s) := by
  simp only [takeTransition, hp, phaseDSkip]

theorem takeTransition_dKeep {e : Nibble} (hp : s.ph = .dKeep) (he : tabInv (discrepancyField s.cw) = some e) :
    takeTransition s = .next (finishCommand
      (frameNibble ((genNibble s.config s.r).2 ^^^ e) (setR (genNibble s.config s.r).1 s))) := by
  simp only [takeTransition, hp, phaseDKeep, he, drawNibble_fst, drawNibble_snd]

theorem exec_decodeCodeword_isNext (hp : s.ph = .dMask) (cw : Byte) : ∃ t, exec (decodeCodeword cw) s = .next t := by
  by_cases hesc : cw = escCodeword
  · rw [hesc, decodeCodeword_esc]
    exact ⟨_, exec_cwEsc_dMask hp⟩
  · rw [decodeCodeword_of_ne_esc hesc]
    exact ⟨_, exec_decodeFields_dMask hp _ _⟩

/-- The tables are read only where they have entries: `VALID` guards `DISC` in `E_SRCH`, and in `D_KEEP` the invariant
says that the discrepancy has an `INV` entry (42_match_tables.md R81, R82). -/
theorem takeTransition_isNext (h : MachineInv s) : ∃ t, takeTransition s = .next t := by
  cases hp : s.ph with
  | idle => exact ⟨_, takeTransition_idle hp⟩
  | eMask => exact ⟨_, takeTransition_eMask hp⟩
  | eSrch => rw [takeTransition_eSrch hp]; exact phaseESrch_isNext s
  | eOvf => exact ⟨_, takeTransition_eOvf hp⟩
  | dMask => rw [takeTransition_dMask hp]; exact exec_decodeCodeword_isNext (s := (unmaskCodeword s).1) hp _
  | dEsc => exact ⟨_, takeTransition_dEsc hp⟩
  | dSkip => exact ⟨_, takeTransition_dSkip hp⟩
  | dKeep =>
    obtain ⟨-, -, -, ⟨-, hclass⟩, -⟩ := h
    obtain ⟨e, he⟩ := exists_tabInv (hclass (.inr hp))
    exact ⟨_, takeTransition_dKeep hp he⟩

/-- Settles O46, along the definition of `step`: the host's action, or the transition of the phase. The invariant says
nothing of the port, so it holds in the state the action finds. -/
theorem stepNeverStops : Obligations.StepNeverStops := by
  intro s h
  cases hport : s.port with
  | nil =>
    rw [step_of_port_nil hport]
    exact .inl (takeTransition_isNext h)
  | cons a rest =>
    rw [step_of_port_cons hport]
    cases a with
    | wait => exact .inl (takeTransition_isNext (s := { s with port := rest }) h)
    | awaitIdle =>
      by_cases hp : s.ph = .idle
      · exact .inl ⟨_, if_pos hp⟩
      · obtain ⟨t, ht⟩ := takeTransition_isNext (s := { s with port := .awaitIdle :: rest }) h
        exact .inl ⟨t, (if_neg hp).trans ht⟩
    | issue w =>
      by_cases hp : s.ph = .idle
      · exact .inl (exec_command_isNext (s := { s with port := rest }) (decodeCommand_isCommand w) hp)
      · exact .inr ⟨hp, ⟨w, rest, rfl⟩,
          exec_command_busy (s := { s with port := rest }) (decodeCommand_isCommand w) hp⟩
    | reset | readStatus | readFinfo | takeOut => exact .inl ⟨_, rfl⟩

end Sys2Proof.Machine
end

section
/-! The encode path (43_encode.md): what `ENCN` and `ENCB` start, what its phases do, and the phases against the
big-step rules for searches that end. -/

namespace Sys2Proof.Machine

variable {s t : State} {n : Nat}

/-! ### The start of an encode command -/

theorem exec_encn (hs : ReadyToDraw s) (p : Nibble) : exec (.encn p) s = .next (startEncode p s.ln false s) :=
  onDraw_ready hs

theorem exec_encn_unseeded (hs : Ready s) (hseed : s.seeded = false) (p : Nibble) :
    exec (.encn p) s = .next (raiseFault (.notSeeded 0x5#4) s) :=
  onDraw_unseeded hs hseed

theorem exec_encb_unseeded (hs : Ready s) (hseed : s.seeded = false) (b : Byte) :
    exec (.encb b) s = .next (raiseFault (.notSeeded 0x6#4) s) :=
  onDraw_unseeded hs hseed

/-- Settles O25: one case for each gate. -/
theorem encodeCommandsStart : Obligations.EncodeCommandsStart := by
  refine ⟨fun s hs => ⟨exec_encn hs, exec_encb hs⟩, fun s i hp hi => ⟨fun hf => ?ignored, fun hf hseed => ?unseeded⟩⟩
  case ignored =>
    obtain ⟨p, rfl⟩ | ⟨b, rfl⟩ := hi
    · exact exec_command_faulted rfl hp hf
    · exact exec_command_faulted rfl hp hf
  case unseeded =>
    obtain ⟨p, rfl⟩ | ⟨b, rfl⟩ := hi
    · exact ⟨_, exec_encn_unseeded ⟨hp, hf⟩ hseed p, rfl, rfl, rfl⟩
    · exact ⟨_, exec_encb_unseeded ⟨hp, hf⟩ hseed b, rfl, rfl, rfl⟩

/-! ### The phases -/

/-- Settles O36. -/
theorem maskDrawingPhases : Obligations.MaskDrawingPhases := fun _ hport =>
  ⟨fun hp => (step_of_port_nil hport).trans (takeTransition_eMask hp),
    fun hp => (step_of_port_nil hport).trans (takeTransition_eOvf hp)⟩

/-- Settles O37: the nibble drawn matches or is rejected, and what follows is told by `LP` or by `FAILS`. -/
theorem searchPhase : Obligations.SearchPhase := by
  intro s hport hp
  have hstep : step s = phaseESrch s := (step_of_port_nil hport).trans (takeTransition_eSrch hp)
  refine ⟨fun d hd => ?matched, fun hv => ?rejected, exists_tabDisc⟩
  case matched =>
    rw [hstep, phaseESrch_of_match hd]
    exact ⟨fun hlp => congrArg _ (afterMatch_of_lp hlp), fun hlp => congrArg _ (afterMatch_of_not_lp hlp)⟩
  case rejected =>
    rw [hstep, phaseESrch_of_reject hv]
    exact ⟨fun hf => congrArg _ (afterReject_of_full hf), fun hf => congrArg _ (afterReject_of_not_full hf)⟩

/-! ### Searches that end -/

/-- Before its last state a run through busy states is busy. -/
theorem Works.busy_before (h : Works n s t) {k : Nat} (hk : k < n) : ∃ u, Reaches k s u ∧ u.ph ≠ .idle := by
  induction h generalizing k with
  | refl => exact absurd hk (Nat.not_lt_zero k)
  | @cons n s v t hb hs _ ih =>
    cases k with
    | zero => exact ⟨s, rfl, hb⟩
    | succ k =>
      obtain ⟨u, hu, hbusy⟩ := ih (Nat.lt_of_succ_lt_succ hk)
      exact ⟨u, hu.cons hs, hbusy⟩

/-- `ENCN` meets its big-step rule (43_encode.md R96); `LN` is not written. -/
theorem works_encn {r' : GenReg} {bytes : List Byte} {p : Nibble} {fuel : Nat} (hw : Waits s.port)
    (h : encodeNibble s.config fuel s.r p = some (r', bytes)) :
    ∃ n m f, Works n (startEncode p s.ln false s) (encodeDone r' bytes m f p s.ln s) := by
  obtain ⟨n, m, f, hn⟩ := works_encodeNibble (s := startEncode p s.ln false s) hw rfl h
  rw [afterMatch_of_not_lp rfl] at hn
  exact ⟨n, m, f, hn⟩

/-- Settles O52: either command works until its search is over and leaves `encodeDone`, which is idle. -/
theorem encodeCommandsMeetBigStep : Obligations.EncodeCommandsMeetBigStep := by
  intro s fuel r' bytes i hs hport hi
  have hworks : ∃ s1 n m f p l, exec i s = .next s1 ∧ Works n s1 (encodeDone r' bytes m f p l s) := by
    obtain ⟨p, rfl, h⟩ | ⟨b, rfl, h⟩ := hi
    · obtain ⟨n, m, f, hn⟩ := works_encn (.inl hport) h
      exact ⟨_, n, m, f, _, _, exec_encn hs p, hn⟩
    · obtain ⟨n, m, f, hn⟩ := works_encb (.inl hport) h
      exact ⟨_, n, m, f, _, _, exec_encb hs b, hn⟩
  obtain ⟨s1, n, m, f, p, l, hexec, hn⟩ := hworks
  exact ⟨s1, n, _, hexec, hn.reaches, fun _ => hn.busy_before,
    rfl, rfl, rfl, rfl, rfl, rfl, rfl, rfl, rfl, rfl, rfl, hport, rfl⟩

end Sys2Proof.Machine
end

section
/-! Searches that do not end (43_encode.md R96; 70_reset_and_hazards.md R137): no draw of such a search matches, so that
its attempts all end in the escape, one after another. -/

namespace Sys2Proof.Machine

variable {s u : State} {n : Nat}

/-! ### One draw of the big-step search -/

section Search

variable {c : Config} {fuel : Nat} {r : GenReg} {p : Nibble} {m : Byte} {fails : BitVec 6}

theorem encodeSearch_succ_of_match {d : DiscCode} (hd : tabDisc (p ^^^ (genNibble c r).2) = some d) :
    encodeSearch c (fuel + 1) r p m fails =
      some ((genNibble c r).1, [applyMask (makeCodeword fails d) m]) := by
  simp only [encodeSearch, tabValid_of_tabDisc hd, hd, if_true, Option.map_some]

/-- The 32nd rejection: the sentinel, and a search under a fresh mask. -/
theorem encodeSearch_succ_of_full (hv : tabValid (p ^^^ (genNibble c r).2) = false) (hf : fails = 31#6) :
    encodeSearch c (fuel + 1) r p m fails =
      (encodeSearch c fuel (genMask c (genNibble c r).1).1 p (genMask c (genNibble c r).1).2 0#6).map fun e =>
        (e.1, applyMask escCodeword m :: e.2) := by
  simp [encodeSearch, hv, hf, maxFail]

theorem encodeSearch_succ_of_not_full (hv : tabValid (p ^^^ (genNibble c r).2) = false) (hf : fails ≠ 31#6) :
    encodeSearch c (fuel + 1) r p m fails = encodeSearch c fuel (genNibble c r).1 p m (fails + 1#6) := by
  have hnot : fails + 1#6 ≠ maxFail := fun h => hf (eq_sub_of_add_eq h)
  simp [encodeSearch, hv, hnot]

/-- More fuel ends a search as less fuel does. -/
theorem encodeSearch_mono {fuel' : Nat} {e : GenReg × List Byte} (hle : fuel ≤ fuel')
    (h : encodeSearch c fuel r p m fails = some e) : encodeSearch c fuel' r p m fails = some e := by
  induction fuel generalizing fuel' r m fails e with
  | zero => simp [encodeSearch] at h
  | succ fuel ih =>
    obtain ⟨fuel', rfl⟩ : ∃ k, fuel' = k + 1 := ⟨fuel' - 1, by omega⟩
    have hle : fuel ≤ fuel' := Nat.le_of_succ_le_succ hle
    cases hv : tabValid (p ^^^ (genNibble c r).2) with
    | true =>
      obtain ⟨d, hd⟩ := exists_tabDisc hv
      rwa [encodeSearch_succ_of_match hd] at h ⊢
    | false =>
      by_cases hf : fails = 31#6
      · rw [encodeSearch_succ_of_full hv hf] at h ⊢
        obtain ⟨e', he', rfl⟩ := Option.map_eq_some_iff.mp h
        rw [ih hle he', Option.map_some]
      · rw [encodeSearch_succ_of_not_full hv hf] at h ⊢
        exact ih hle h

/-- A byte whose high nibble is encoded hangs at its low nibble. -/
theorem encodeNibble_low_eq_none {b : Byte} {e : GenReg × List Byte}
    (hhigh : encodeNibble c fuel r (highNibble b) = some e) (hnone : ∀ k, encodeByte c k r b = none) (k : Nat) :
    encodeNibble c k e.1 (lowNibble b) = none := by
  refine Option.eq_none_iff_forall_ne_some.mpr fun e' hlow => ?_
  have hhigh' : encodeNibble c (max fuel k) r (highNibble b) = some e := encodeSearch_mono (le_max_left _ _) hhigh
  have hlow' : encodeNibble c (max fuel k) e.1 (lowNibble b) = some e' := encodeSearch_mono (le_max_right _ _) hlow
  simpa [encodeByte, hhigh', hlow'] using hnone (max fuel k)

end Search

/-! ### Attempt after attempt -/

/-- A block in a search that no fuel ends, the host waiting. -/
structure Hangs (s : State) : Prop where
  waits : Waits s.port
  ph : s.ph = .eSrch
  endless : ∀ fuel, encodeSearch s.config fuel s.r s.pn s.mask s.fails = none

/-- A match would end the search. -/
theorem Hangs.rejects (h : Hangs s) : tabValid (s.pn ^^^ (genNibble s.config s.r).2) = false := by
  refine eq_false_of_ne_true fun hv => ?_
  obtain ⟨d, hd⟩ := exists_tabDisc hv
  have hnone := h.endless 1
  rw [encodeSearch_succ_of_match hd] at hnone
  cases hnone

/-- An attempt with `j` rejections to go before its last one ends in the escape, and the search hangs on. -/
theorem Hangs.escapes {j : Nat} (h : Hangs s) (hj : s.fails.toNat + j = 31) :
    ∃ n t, Works (n + 1) s t ∧ Hangs t ∧ t.fails = 0#6 ∧ t.out.length = s.out.length + 1 := by
  induction j generalizing s with
  | zero =>
    have hv := h.rejects
    have hf : s.fails = 31#6 := BitVec.eq_of_toNat_eq hj
    refine ⟨1, _, works_escape h.waits h.ph hv hf, ⟨h.waits, rfl, fun fuel => ?_⟩, rfl, by simp [searchAfterEscape]⟩
    have hnone := h.endless (fuel + 1)
    rw [encodeSearch_succ_of_full hv hf] at hnone
    exact Option.map_eq_none_iff.mp hnone
  | succ j ih =>
    have hv := h.rejects
    have hf : s.fails ≠ 31#6 := fun hf => by simp [hf] at hj
    have hreject : Works 1 s { setR (genNibble s.config s.r).1 s with fails := s.fails + 1#6 } :=
      works_eSrch h.waits h.ph ((phaseESrch_of_reject hv).trans (congrArg _ (afterReject_of_not_full hf)))
    have hnext : Hangs { setR (genNibble s.config s.r).1 s with fails := s.fails + 1#6 } :=
      ⟨h.waits, h.ph, fun fuel => (encodeSearch_succ_of_not_full hv hf).symm.trans (h.endless (fuel + 1))⟩
    obtain ⟨n, t, hn, ht⟩ := ih hnext (by simp; omega)
    exact ⟨1 + n, t, hreject.trans hn, ht⟩

/-- At the start of an attempt, any number of bytes is still to be pushed, each by at least one step. -/
theorem Hangs.pushes (h : Hangs s) (hf : s.fails = 0#6) (k : Nat) :
    ∃ n t, k ≤ n ∧ Works n s t ∧ t.out.length = s.out.length + k := by
  induction k generalizing s with
  | zero => exact ⟨0, s, le_rfl, .refl s, rfl⟩
  | succ k ih =>
    obtain ⟨n1, t1, hn1, h1, hf1, hout1⟩ := h.escapes (j := 31) (by simp [hf])
    obtain ⟨n2, t, hk, hn2, hout⟩ := ih h1 hf1
    exact ⟨n1 + 1 + n2, t, by omega, hn1.trans hn2, by omega⟩

/-- What it is for a command accepted in `s` to hang: it never stops, is never over, and pushes without end
(70_reset_and_hazards.md R137). -/
def NeverReturns (s : State) : Prop :=
  (∀ n, ∃ t, Reaches n s t ∧ t.ph ≠ .idle) ∧ ∀ k, ∃ n t, Reaches n s t ∧ s.out.length + k ≤ t.out.length

theorem Hangs.neverReturns (hu : Hangs u) (hf : u.fails = 0#6) (hw : Works n s u)
    (hout : s.out.length ≤ u.out.length) : NeverReturns s := by
  refine ⟨fun k => ?_, fun k => ?_⟩
  · obtain ⟨m, t, hk, hm, -⟩ := hu.pushes hf (k + 1)
    exact (hw.trans hm).busy_before (by omega)
  · obtain ⟨m, t, -, hm, hlen⟩ := hu.pushes hf k
    exact ⟨n + m, t, (hw.trans hm).reaches, by omega⟩

/-- A nibble whose search no fuel ends, from phase `E_MASK` on. -/
theorem neverReturns_of_encodeNibble (hwait : Waits u.port) (hp : u.ph = .eMask)
    (h : ∀ fuel, encodeNibble u.config fuel u.r u.pn = none) (hw : Works n s u)
    (hout : s.out.length ≤ u.out.length) : NeverReturns s := by
  have hmask : Works 1 u (beginSearch u) := .single hwait (by simp [hp]) (takeTransition_eMask hp)
  exact Hangs.neverReturns (u := beginSearch u) ⟨hwait, rfl, h⟩ rfl (hw.trans hmask) hout

/-- An `ENCB` that no fuel ends hangs at its high nibble, or encodes it and hangs at its low nibble. -/
theorem neverReturns_encb {b : Byte} (hwait : Waits s.port) (h : ∀ fuel, encodeByte s.config fuel s.r b = none) :
    NeverReturns (startEncode (highNibble b) (lowNibble b) true s) := by
  by_cases hhigh : ∀ fuel, encodeNibble s.config fuel s.r (highNibble b) = none
  · exact neverReturns_of_encodeNibble (u := startEncode (highNibble b) (lowNibble b) true s) hwait rfl hhigh
      (.refl _) le_rfl
  · obtain ⟨fuel, hne⟩ := not_forall.mp hhigh
    obtain ⟨⟨r1, high⟩, hsome⟩ := Option.ne_none_iff_exists'.mp hne
    obtain ⟨n, m, f, hn⟩ :=
      works_encodeNibble (s := startEncode (highNibble b) (lowNibble b) true s) hwait rfl hsome
    rw [afterMatch_of_lp rfl] at hn
    have hlow := encodeNibble_low_eq_none hsome h
    exact neverReturns_of_encodeNibble (u := { searchAt r1 m f high
      (startEncode (highNibble b) (lowNibble b) true s) with pn := lowNibble b, lp := false, ph := .eMask })
      hwait rfl hlow hn (by simp [searchAt])

/-- Settles O53: the search of either command hangs, so that attempt follows attempt, each pushing an escape. -/
theorem hungEncodeNeverReturns : Obligations.HungEncodeNeverReturns := by
  intro s i hs hport hi
  obtain ⟨p, rfl, h⟩ | ⟨b, rfl, h⟩ := hi
  · exact ⟨_, exec_encn hs p, neverReturns_of_encodeNibble (u := startEncode p s.ln false s) (.inl hport) rfl h
      (.refl _) le_rfl⟩
  · exact ⟨_, exec_encb hs b, neverReturns_encb (.inl hport) h⟩

end Sys2Proof.Machine
end

section
/-! The decode commands and the codeword classes: `DRST`, `DECB` accepted, and what a codeword starts in phase `D_MASK`
(44_decode.md R104, R105, R108). -/

namespace Sys2Proof.Machine

variable {s : State}

/-! ### The commands -/

/-- Settles O21: one case for each value of `FAULT`. -/
theorem drstCommand : Obligations.DrstCommand :=
  ⟨fun _ hop => decodeCommand_of_opField hop, fun _ hp =>
    ⟨fun hf => exec_drst ⟨hp, hf⟩, exec_command_faulted rfl hp⟩⟩

/-- Settles O26. -/
theorem decodeCommandStarts : Obligations.DecodeCommandStarts := fun _ hs => exec_decb hs

/-! ### Codewords -/

/-- Settles O32. -/
theorem escapeCodewordStarts : Obligations.EscapeCodewordStarts := fun _ hp => exec_cwEsc_dMask hp

/-- Both branches of a match write the fail_count into `FAILS`; it only chooses the phase. -/
theorem startMatch_eq (f : BitVec 5) (d : DiscCode) (s : State) :
    startMatch f d s =
      { s with cw := f ++ d, fails := f.setWidth 6, ph := if f = 0#5 then .dKeep else .dSkip } := by
  by_cases hf : f = 0#5
  · subst hf; rfl
  · rw [startMatch, if_neg hf, if_neg hf]

theorem exec_match_dMask (hp : s.ph = .dMask) (f : BitVec 5) {d : DiscCode} (hd : d.toNat ≤ 4) :
    exec (decodeFields f d) s = .next (startMatch f d s) := by
  rw [exec_decodeFields_dMask hp, classify, if_pos hd]

/-- Settles O33: the five match classes are the fields with discrepancy 0 to 4. -/
theorem matchCodewordsStart : Obligations.MatchCodewordsStart := by
  intro s f i d hp hi
  have hclass : i = decodeFields f d ∧ d.toNat ≤ 4 := by
    simp only [List.mem_cons, Prod.mk.injEq, List.not_mem_nil, or_false] at hi
    obtain ⟨rfl, rfl⟩ | ⟨rfl, rfl⟩ | ⟨rfl, rfl⟩ | ⟨rfl, rfl⟩ | ⟨rfl, rfl⟩ := hi <;> exact ⟨rfl, by decide⟩
  obtain ⟨rfl, hd⟩ := hclass
  rw [exec_match_dMask hp f hd, startMatch_eq]

/-! ### The decoded codeword -/

/-- The one ill-formed instruction is the malformed class with the sentinel's fields (30_encoding.md R55). -/
theorem wellFormed_of_ne_cwBad7 {i : Instr} (h : i ≠ .cwBad7 31#5) : WellFormed i = true := by
  cases i with
  | cwBad7 f =>
    have hf : f ≠ 31#5 := fun hf => h (congrArg Instr.cwBad7 hf)
    simp [WellFormed, checkForm, hf]
  | _ => rfl

/-- A codeword that decoded to the ill-formed class would be the sentinel, which decodes to `CW.ESC`. -/
theorem wellFormed_decodeCodeword (cw : Byte) : WellFormed (decodeCodeword cw) = true := by
  refine wellFormed_of_ne_cwBad7 fun h => ?_
  have hword : EncodedWord.codeword cw = encode (.cwBad7 31#5) := by rw [← h, encode_decodeCodeword]
  obtain rfl : cw = escCodeword := EncodedWord.codeword.inj hword
  exact Instr.noConfusion (decodeCodeword_esc.symm.trans h)

/-- Settles O4: with or without a `wait` to take off the port, the step is the transition of `D_MASK`. -/
theorem stepRunsTheUnmaskedCodeword : Obligations.StepRunsTheUnmaskedCodeword := fun s hp =>
  ⟨wellFormed_decodeCodeword _,
    fun hport => (step_of_port_nil hport).trans (takeTransition_dMask hp),
    fun rest hport => (step_of_port_cons hport).trans (takeTransition_dMask (s := { s with port := rest }) hp)⟩

end Sys2Proof.Machine
end

section
/-! The decode phases, one transition each (44_decode.md R105 to R107), and the moves that enter a discarding phase. -/

namespace Sys2Proof.Machine

variable {s t : State}

/-! ### Phase `D_MASK` -/

/-- Past the sentinel test a codeword is classified by its fields. -/
theorem exec_decodeCodeword_of_ne_esc (hp : s.ph = .dMask) {cw : Byte} (h : cw ≠ escCodeword) :
    exec (decodeCodeword cw) s = .next (classify (failCountField cw) (discrepancyField cw) s) := by
  rw [decodeCodeword_of_ne_esc h, exec_decodeFields_dMask hp]

theorem exec_decodeCodeword_malformed (hp : s.ph = .dMask) {cw : Byte} (h : cw ≠ escCodeword)
    (hd : 5 ≤ (discrepancyField cw).toNat) :
    exec (decodeCodeword cw) s = .next (raiseFault (.malformedCiphertext cw) { s with cw := cw }) := by
  rw [exec_decodeCodeword_of_ne_esc hp h, classify, if_neg (by omega), malformed, append_codewordFields]

theorem ne_escCodeword_of_discrepancy_le {cw : Byte} (hd : (discrepancyField cw).toNat ≤ 4) : cw ≠ escCodeword := by
  rintro rfl
  exact absurd hd (by decide)

theorem exec_decodeCodeword_match (hp : s.ph = .dMask) {cw : Byte} (hd : (discrepancyField cw).toNat ≤ 4) :
    exec (decodeCodeword cw) s =
      .next { s with
        cw := cw, fails := (failCountField cw).setWidth 6
        ph := if failCountField cw = 0#5 then .dKeep else .dSkip } := by
  rw [exec_decodeCodeword_of_ne_esc hp (ne_escCodeword_of_discrepancy_le hd), classify, if_pos hd, startMatch_eq,
    append_codewordFields]

/-- Settles O38: the transition runs the unmasked codeword, and each class of codeword has its clause. -/
theorem unmaskingPhase : Obligations.UnmaskingPhase := by
  intro s hport hp m cw
  have hp' : (unmaskCodeword s).1.ph = .dMask := hp
  rw [step_of_port_nil hport, takeTransition_dMask hp, show (unmaskCodeword s).2 = cw from rfl]
  refine ⟨fun hesc => ?sentinel, fun hesc hd => ?bad, fun hd hf => ?keep, fun hd hf => ?skip⟩
  case sentinel =>
    rw [hesc]
    exact exec_cwEsc_dMask hp'
  case bad => exact exec_decodeCodeword_malformed hp' hesc hd
  case keep =>
    have hf : failCountField cw = 0#5 := hf
    rw [exec_decodeCodeword_match hp' hd, if_pos hf, hf]
    rfl
  case skip =>
    have hf : failCountField cw ≠ 0#5 := hf
    rw [exec_decodeCodeword_match hp' hd, if_neg hf]
    rfl

/-! ### Phases `D_ESC` and `D_SKIP` -/

theorem fails_pos_of_startMatch {f : BitVec 5} {d : DiscCode} (h : (startMatch f d s).ph = .dSkip) :
    1 ≤ (startMatch f d s).fails.toNat := by
  rw [startMatch_eq] at h ⊢
  have hf : f ≠ 0#5 := by rintro rfl; cases h
  simp only
  bv_omega

/-- A discarding phase is entered from `D_MASK` only, for the 32 nibbles of the sentinel or the positive count of a
match. -/
theorem Move.fails_pos (h : Move s t) (hne : t.ph ≠ s.ph) (ht : t.ph = .dEsc ∨ t.ph = .dSkip) :
    1 ≤ t.fails.toNat := by
  cases h with
  | findsEscape => exact maxFail_inRange.1
  | findsMatch f d hd hp =>
    refine fails_pos_of_startMatch (ht.resolve_left fun hesc => ?_)
    rw [startMatch_eq] at hesc
    simp only at hesc
    split at hesc <;> cases hesc
  | stays | shows | answers | inits | clearsFraming | drawsBit | drawsNibble | drawsMask => exact absurd rfl hne
  | resets | startsEncode | startsDecode | lacksSeed | isIllegal | drawsFirstMask | escapes | findsMalformed
  | keepsNibble => exact ht.elim nofun nofun
  | matchesNibble =>
    unfold afterMatch at ht
    split at ht <;> exact ht.elim nofun nofun
  | rejectsNibble hp =>
    unfold afterReject at hne ht
    split at ht
    · exact ht.elim nofun nofun
    · simp [hp] at ht
  | discardsEscaped hp =>
    split at ht
    · exact ht.elim nofun nofun
    · rename_i hf
      exact absurd (congrArg State.ph (if_neg hf)) hne
  | discardsRejected hp =>
    split at ht
    · exact ht.elim nofun nofun
    · rename_i hf
      exact absurd (congrArg State.ph (if_neg hf)) hne

/-- Settles O39: each visit is one branch of its transition, and the moves that enter a discarding phase set `FAILS`. -/
theorem discardingPhases : Obligations.DiscardingPhases := by
  refine ⟨fun s hport => ?_, fun s t hstep hne ht => ?_⟩
  · rw [step_of_port_nil hport]
    refine ⟨fun hp hf => ?_, fun hp hf => ?_, fun hp hf => ?_, fun hp hf => ?_⟩
    · rw [takeTransition_dEsc hp, if_neg hf]; rfl
    · rw [takeTransition_dEsc hp, if_pos hf, discardOne, hf]; rfl
    · rw [takeTransition_dSkip hp, if_neg hf]; rfl
    · rw [takeTransition_dSkip hp, if_pos hf, discardOne, hf]; rfl
  · obtain ⟨p, hm⟩ := step_next hstep
    exact hm.fails_pos hne ht

/-! ### Phase `D_KEEP` -/

theorem frameNibble_of_not_hl (h : s.hl = false) (p : Nibble) : frameNibble p s = { s with nb := p, hl := true } := by
  simp [frameNibble, h]

theorem frameNibble_of_hl (h : s.hl = true) (p : Nibble) :
    frameNibble p s = { pushByte (joinNibbles s.nb p) s with hl := false } :=
  if_pos h

/-- Settles O40: the kept nibble waits in `NB`, or completes the byte whose high nibble waits there. -/
theorem keepingPhase : Obligations.KeepingPhase := by
  intro s hport hp e he p
  rw [step_of_port_nil hport, takeTransition_dKeep hp he]
  refine ⟨fun hhl => ?high, fun hhl => ?low⟩
  case high => rw [frameNibble_of_not_hl ((setR_hl s _).trans hhl)]; rfl
  case low => rw [frameNibble_of_hl ((setR_hl s _).trans hhl)]; rfl

end Sys2Proof.Machine
end

section
/-! The decode phases against the big-step rule of `DECB` (44_decode.md R104). -/

namespace Sys2Proof.Machine

variable {c : Config} {d : Decoding} {cw : Byte}

@[simp] theorem frameBig_malformedAt (p : Nibble) (d : Decoding) : (frameBig p d).malformedAt = d.malformedAt := by
  unfold frameBig; split <;> rfl

/-- A decryption faults before it pushes anything (44_decode.md R101). -/
theorem decodeCodewordBig_out_of_malformed (hok : d.malformedAt = none)
    (h : (decodeCodewordBig c cw d).malformedAt ≠ none) : (decodeCodewordBig c cw d).out = d.out := by
  by_cases hesc : cw = escCodeword
  · rw [hesc, decodeCodewordBig_esc]
  · cases hinv : tabInv (discrepancyField cw) with
    | none => rw [decodeCodewordBig_malformed c d hesc hinv]
    | some e =>
      rw [decodeCodewordBig_match c d hesc hinv, frameBig_malformedAt] at h
      exact absurd hok h

/-- Settles O54: an accepted `DECB` works until it leaves `decodeDone`, which is idle. -/
theorem decodeCommandMeetsBigStep : Obligations.DecodeCommandMeetsBigStep := by
  intro s c hs hport d
  have ⟨⟨_, hf⟩, _⟩ := hs
  obtain ⟨n, m, f, cw, hn, hworks⟩ := works_decb (.inl hport) hf c
  refine ⟨_, n, _, exec_decb hs c, hn, hworks.reaches, fun _ => hworks.busy_before,
    rfl, rfl, rfl, rfl, rfl, rfl, rfl, rfl, hport, fun hok => ?decoded, fun bad hbad => ?faulted⟩
  case decoded =>
    have hok : (decodeByteBig s.config (decodingFrom s) c).malformedAt = none := hok
    simp [decodeDone, hok]
  case faulted =>
    have hbad : (decodeByteBig s.config (decodingFrom s) c).malformedAt = some bad := hbad
    have hout : d.out = [] := decodeCodewordBig_out_of_malformed (d := { decodingFrom s with r := _ }) rfl
      (hbad ▸ Option.some_ne_none bad)
    refine ⟨?_, ?_, ?_, hout⟩ <;> simp [decodeDone, hbad]

end Sys2Proof.Machine
end

section
/-! The round trip over the big-step rules (44_decode.md R110). A search is undone by an induction along the search: the
decoder discards the nibbles of each failed attempt, and corrects the one nibble that matched. -/

namespace Sys2Proof.Machine

variable {c : Config}

/-- The last of several nibbles discarded. -/
theorem discardNibbles_succ (c : Config) (n : Nat) (r : GenReg) :
    discardNibbles c (n + 1) r = (genNibble c (discardNibbles c n r)).1 := by
  rw [discardNibbles_iterate, discardNibbles_iterate, genNibble_fst_iterate]
  exact (genNext_iterate_add c r (by omega)).symm

theorem applyMask_applyMask (b m : Byte) : applyMask (applyMask b m) m = b := applyMask_xor_mask b m

/-- A byte masked under the mask that the decoder draws is decoded as the codeword it was. -/
theorem decodeByteBig_applyMask (c : Config) {d : Decoding} (h : d.malformedAt = none) (cw : Byte) :
    decodeByteBig c d (applyMask cw (genMask c d.r).2) = decodeCodewordBig c cw { d with r := (genMask c d.r).1 } := by
  rw [decodeByteBig_of_unfaulted c _ h, applyMask_applyMask, genMask_fst_iterate]

/-- The codeword of a match gives the nibble back: the decoder discards the rejected nibbles, and the keystream nibble
it keeps is the one that matched (42_match_tables.md R83). -/
theorem decodeCodewordBig_makeCodeword {fails : BitVec 6} (hlt : fails.toNat < 32) {p : Nibble} {disc : DiscCode}
    {d : Decoding} (hdisc : tabDisc (p ^^^ (genNibble c (discardNibbles c fails.toNat d.r)).2) = some disc) :
    decodeCodewordBig c (makeCodeword fails disc) d =
      frameBig p { d with r := (genNibble c (discardNibbles c fails.toNat d.r)).1 } := by
  have hesc : fails.setWidth 5 ++ disc ≠ escCodeword := by
    have := tabDisc_le _ _ hdisc
    exact append_ne_escCodeword (.inl (by rintro rfl; exact absurd this (by decide)))
  have hinv := tabInv_of_tabDisc _ _ hdisc
  rw [← discrepancyField_append (fails.setWidth 5) disc] at hinv
  have hcount : (fails.setWidth 5).toNat = fails.toNat := by simp; omega
  rw [makeCodeword_eq_append fails disc hlt, decodeCodewordBig_match c d hesc hinv, failCountField_append, hcount,
    BitVec.xor_comm p, ← BitVec.xor_assoc, BitVec.xor_self, BitVec.zero_xor]

/-- Decoding the bytes of a search that ends gives the nibble back and leaves the encoder's register. The attempt began
where the decoder stands; its mask and `fails` rejected nibbles have been drawn since. -/
theorem decode_encodeSearch {fuel : Nat} {p : Nibble} {r' : GenReg} {bytes : List Byte} {fails : BitVec 6}
    {d : Decoding} (hlt : fails.toNat < 32) (hok : d.malformedAt = none)
    (h : encodeSearch c fuel (discardNibbles c fails.toNat (genMask c d.r).1) p (genMask c d.r).2 fails =
      some (r', bytes)) :
    bytes.foldl (decodeByteBig c) d = frameBig p { d with r := r' } := by
  induction fuel generalizing d fails bytes with
  | zero => simp [encodeSearch] at h
  | succ fuel ih =>
    cases hv : tabValid (p ^^^ (genNibble c (discardNibbles c fails.toNat (genMask c d.r).1)).2) with
    | true =>
      obtain ⟨disc, hdisc⟩ := exists_tabDisc hv
      rw [encodeSearch_succ_of_match hdisc] at h
      obtain ⟨rfl, rfl⟩ := Prod.mk.inj (Option.some.inj h)
      rw [List.foldl_cons, decodeByteBig_applyMask c hok]
      exact decodeCodewordBig_makeCodeword (d := { d with r := (genMask c d.r).1 }) hlt hdisc
    | false =>
      by_cases hfull : fails = 31#6
      · -- the 32nd rejection: the sentinel discards the whole attempt
        subst hfull
        rw [encodeSearch_succ_of_full hv rfl] at h
        obtain ⟨⟨r'', rest⟩, hrest, hpair⟩ := Option.map_eq_some_iff.mp h
        obtain ⟨rfl, rfl⟩ := Prod.mk.inj hpair
        rw [← discardNibbles_succ] at hrest
        rw [List.foldl_cons, decodeByteBig_applyMask c hok, decodeCodewordBig_esc]
        exact ih (d := { d with r := discardNibbles c 32 (genMask c d.r).1 }) (fails := 0#6) (by decide) hok hrest
      · -- an earlier rejection
        have hsucc : (fails + 1#6).toNat = fails.toNat + 1 := by bv_omega
        rw [encodeSearch_succ_of_not_full hv hfull, ← discardNibbles_succ, ← hsucc] at h
        exact ih (by bv_omega) hok h

/-- An encoded nibble is decoded as it was. -/
theorem decode_encodeNibble {fuel : Nat} {p : Nibble} {r' : GenReg} {bytes : List Byte} {d : Decoding}
    (hok : d.malformedAt = none) (h : encodeNibble c fuel d.r p = some (r', bytes)) :
    bytes.foldl (decodeByteBig c) d = frameBig p { d with r := r' } :=
  decode_encodeSearch (fails := 0#6) (by decide) hok h

/-- A byte is its two nibbles (30_encoding.md R51). -/
theorem joinNibbles_highNibble_lowNibble (b : Byte) : joinNibbles (highNibble b) (lowNibble b) = b :=
  BitVec.extractLsb'_append_extractLsb' (w := 4) (len := 4)

/-- An encoded byte is decoded as it was, from one byte boundary to the next. -/
theorem decode_encodeByte {fuel : Nat} {b : Byte} {r r' : GenReg} {nb : Nibble} {bytes before : List Byte}
    (h : encodeByte c fuel r b = some (r', bytes)) :
    bytes.foldl (decodeByteBig c) ⟨r, false, nb, before, none⟩ =
      ⟨r', false, highNibble b, before ++ [b], none⟩ := by
  obtain ⟨⟨r1, high⟩, hhigh, h⟩ := Option.bind_eq_some_iff.mp h
  obtain ⟨⟨r2, low⟩, hlow, hpair⟩ := Option.map_eq_some_iff.mp h
  obtain ⟨rfl, rfl⟩ := Prod.mk.inj hpair
  have hfirst : high.foldl (decodeByteBig c) ⟨r, false, nb, before, none⟩ =
      ⟨r1, true, highNibble b, before, none⟩ := decode_encodeNibble rfl hhigh
  have hsecond : low.foldl (decodeByteBig c) ⟨r1, true, highNibble b, before, none⟩ =
      ⟨r2, false, highNibble b, before ++ [joinNibbles (highNibble b) (lowNibble b)], none⟩ :=
    decode_encodeNibble rfl hlow
  rw [List.foldl_append, hfirst, hsecond, joinNibbles_highNibble_lowNibble]

/-- An encoded byte sequence is decoded as it was, after whatever has been pushed before. -/
theorem decode_encodeBytes {fuel : Nat} {r r' : GenReg} {nb : Nibble} {plain cipher before : List Byte}
    (h : encodeBytes c fuel r plain = some (r', cipher)) :
    ∃ nb', cipher.foldl (decodeByteBig c) ⟨r, false, nb, before, none⟩ =
      ⟨r', false, nb', before ++ plain, none⟩ := by
  induction plain generalizing r nb cipher before with
  | nil =>
    obtain ⟨rfl, rfl⟩ := Prod.mk.inj (Option.some.inj h)
    exact ⟨nb, by rw [List.append_nil, List.foldl_nil]⟩
  | cons b plain ih =>
    obtain ⟨⟨r1, first⟩, hfirst, h⟩ := Option.bind_eq_some_iff.mp h
    obtain ⟨⟨r2, later⟩, hlater, hpair⟩ := Option.map_eq_some_iff.mp h
    obtain ⟨rfl, rfl⟩ := Prod.mk.inj hpair
    obtain ⟨nb', hdec⟩ := ih (before := before ++ [b]) hlater
    exact ⟨nb', by rw [List.foldl_append, decode_encodeByte hfirst, hdec, List.append_assoc, List.singleton_append]⟩

/-- Settles O56: a decryption starts with nothing pushed. -/
theorem decryptionUndoesEncryption : Obligations.DecryptionUndoesEncryption :=
  fun _ _ _ _ _ _ _ h => decode_encodeBytes h

end Sys2Proof.Machine
end

section
/-! The round trip on the machine (44_decode.md R110; 70_reset_and_hazards.md R142). An encryption run that is over is
idle, and so stays as it is; a run whose plaintext no fuel encodes hangs and is never over. The machine being
deterministic, a run that is over is the one the big-step rule describes. -/

namespace Sys2Proof.Machine

variable {s t u : State} {m n : Nat}

/-! ### Runs from the same state -/

/-- Of two states reached from the same one, one is reached from the other. -/
theorem Reaches.comparable (h : Reaches m s t) (h' : Reaches n s u) : ∃ k, Reaches k t u ∨ Reaches k u t := by
  induction m generalizing s n with
  | zero => exact ⟨n, .inl (reaches_zero.mp h ▸ h')⟩
  | succ m ih =>
    cases n with
    | zero => exact ⟨m + 1, .inr (reaches_zero.mp h' ▸ h)⟩
    | succ n =>
      obtain ⟨v, hv, h⟩ := reaches_succ.mp h
      obtain ⟨w, hw, h'⟩ := reaches_succ.mp h'
      obtain rfl : v = w := Host.Outcome.next.inj (hv.symm.trans hw)
      exact ih h h'

theorem Reaches.unique (h : Reaches n s t) (h' : Reaches n s u) : t = u := Host.Outcome.next.inj (h.symm.trans h')

/-- A run is over: the block is idle and the host has nothing more to do. -/
def Over (s : State) : Prop := s.ph = .idle ∧ s.port = []

/-- A block whose run is over keeps all its state (60_exceptions.md R123). -/
theorem Over.eq_of_reaches (h : Over s) (hr : Reaches n s t) : t = s := by
  obtain ⟨hp, hport⟩ := h
  have hstep : step s = .next s := (step_of_port_nil hport).trans (takeTransition_idle hp)
  induction n with
  | zero => exact (reaches_zero.mp hr).symm
  | succ n ih =>
    obtain ⟨v, hv, hr⟩ := reaches_succ.mp hr
    obtain rfl : s = v := Host.Outcome.next.inj (hstep.symm.trans hv)
    exact ih hr

/-- A run is over in one state only. -/
theorem Over.unique (ht : Over t) (hu : Over u) (hst : Reaches m s t) (hsu : Reaches n s u) : t = u := by
  obtain ⟨k, h | h⟩ := hst.comparable hsu
  · exact (ht.eq_of_reaches h).symm
  · exact hu.eq_of_reaches h

/-- A run that passes a command that hangs is never over. -/
theorem NeverReturns.not_over (h : NeverReturns u) (hsu : Reaches n s u) (hst : Reaches m s t) : ¬ Over t := by
  intro ht
  have ⟨hbusy, _⟩ := h
  obtain ⟨k, hr | hr⟩ := hst.comparable hsu
  · obtain ⟨v, hv, hne⟩ := hbusy 0
    obtain rfl := reaches_zero.mp hv
    exact hne (ht.eq_of_reaches hr ▸ ht.1)
  · obtain ⟨v, hv, hne⟩ := hbusy k
    exact hne (hr.unique hv ▸ ht.1)

/-! ### An encryption run -/

/-- The host's actions for the bytes of a plaintext. -/
def encodePort (plain : List Byte) : List HostAction := plain.flatMap fun b => runCommand (.encb b)

theorem Move.port (h : Move s t) : t.port = s.port := by
  cases h with
  | matchesNibble => unfold afterMatch; split <;> rfl
  | rejectsNibble => unfold afterReject; split <;> rfl
  | findsMatch => rw [startMatch_eq]; rfl
  | discardsEscaped => split <;> rfl
  | discardsRejected => split <;> rfl
  | keepsNibble => unfold frameNibble; split <;> rfl
  | _ => rfl

/-- The host is between two bytes of the plaintext, or waits for the encoding of one. -/
def InEncryption (s : State) : Prop :=
  (s.ph = .idle ∧ ∃ plain, s.port = encodePort plain) ∨ ∃ plain, s.port = .awaitIdle :: encodePort plain

theorem InEncryption.step (h : InEncryption s) (hs : step s = .next t) : InEncryption t := by
  obtain ⟨hp, plain, hport⟩ | ⟨plain, hport⟩ := h
  · cases plain with
    | nil =>
      rw [step_of_port_nil hport, takeTransition_idle hp] at hs
      cases hs
      exact .inl ⟨hp, [], hport⟩
    | cons b plain =>
      obtain ⟨w, hw, -⟩ := issueOf_eq (i := .encb b) rfl
      have hport : s.port = .issue w :: .awaitIdle :: encodePort plain := by
        rw [hport, encodePort, List.flatMap_cons, runCommand, hw]
        rfl
      rw [step_issue hport] at hs
      exact .inr ⟨plain, (exec_command_next (decodeCommand_isCommand w) hs).port⟩
  · by_cases hp : s.ph = .idle
    · rw [step_of_port_cons hport, hostAct, if_pos hp] at hs
      cases hs
      exact .inl ⟨hp, plain, rfl⟩
    · rw [step_of_waits (.inr ⟨_, hport⟩) hp] at hs
      exact .inr ⟨plain, (takeTransition_next hs).port.trans hport⟩

theorem InEncryption.reaches (h : InEncryption s) (hr : Reaches n s t) : InEncryption t := by
  induction n generalizing s with
  | zero => exact reaches_zero.mp hr ▸ h
  | succ n ih =>
    obtain ⟨v, hv, hr⟩ := reaches_succ.mp hr
    exact ih (h.step hv) hr

/-- While the host waits it has an action left. -/
theorem InEncryption.over (h : InEncryption s) (hport : s.port = []) : Over s := by
  obtain ⟨hp, -⟩ | ⟨plain, hwait⟩ := h
  · exact ⟨hp, hport⟩
  · cases hport.symm.trans hwait

/-- The block after `INIT`, with the bytes of the plaintext to come. -/
def encryptStart (c : Config) (key : Arg) (plain : List Byte) : State :=
  respond 0x00#8 [] { State.resetWith c with r := seedOfKey key, seeded := true, port := encodePort plain }

theorem step_encryptStart (c : Config) (key : Arg) (plain : List Byte) :
    Reaches 1 { State.resetWith c with port := runEncrypt key plain } (encryptStart c key plain) :=
  reaches_issueOf (i := .init key) rfl rfl (exec_init ⟨rfl, rfl⟩ key)

/-- An encryption run with no host action left is over. -/
theorem over_of_runEncrypt {c : Config} {key : Arg} {plain : List Byte}
    (h : Reaches n { State.resetWith c with port := runEncrypt key plain } t) (hport : t.port = []) : Over t := by
  cases n with
  | zero =>
    obtain rfl := reaches_zero.mp h
    obtain ⟨w, hw, -⟩ := issueOf_eq (i := .init key) rfl
    rw [runEncrypt, hw] at hport
    cases hport
  | succ n =>
    obtain ⟨v, hv, hr⟩ := reaches_succ.mp h
    obtain rfl : v = _ := (Reaches.single hv).unique (step_encryptStart c key plain)
    exact InEncryption.over (InEncryption.reaches (.inl ⟨rfl, plain, rfl⟩) hr) hport

/-! ### Encryptions that do not end -/

/-- More fuel ends the encoding of a byte as less fuel does. -/
theorem encodeByte_mono {c : Config} {fuel fuel' : Nat} {r : GenReg} {b : Byte} {e : GenReg × List Byte}
    (hle : fuel ≤ fuel') (h : encodeByte c fuel r b = some e) : encodeByte c fuel' r b = some e := by
  obtain ⟨high, hhigh, h⟩ := Option.bind_eq_some_iff.mp h
  obtain ⟨low, hlow, rfl⟩ := Option.map_eq_some_iff.mp h
  have hhigh' : encodeNibble c fuel' r (highNibble b) = some high := encodeSearch_mono hle hhigh
  have hlow' : encodeNibble c fuel' high.1 (lowNibble b) = some low := encodeSearch_mono hle hlow
  simp [encodeByte, hhigh', hlow']

theorem encodeBytes_mono {c : Config} {fuel fuel' : Nat} {r : GenReg} {plain : List Byte} {e : GenReg × List Byte}
    (hle : fuel ≤ fuel') (h : encodeBytes c fuel r plain = some e) : encodeBytes c fuel' r plain = some e := by
  induction plain generalizing r e with
  | nil => exact h
  | cons b plain ih =>
    obtain ⟨first, hfirst, h⟩ := Option.bind_eq_some_iff.mp h
    obtain ⟨later, hlater, rfl⟩ := Option.map_eq_some_iff.mp h
    simp [encodeBytes, encodeByte_mono hle hfirst, ih hlater]

/-- A plaintext whose first byte is encoded hangs at a later one. -/
theorem encodeBytes_tail_eq_none {c : Config} {fuel : Nat} {r : GenReg} {b : Byte} {plain : List Byte}
    {e : GenReg × List Byte} (hfirst : encodeByte c fuel r b = some e)
    (hnone : ∀ k, encodeBytes c k r (b :: plain) = none) (k : Nat) : encodeBytes c k e.1 plain = none := by
  refine Option.eq_none_iff_forall_ne_some.mpr fun e' hlater => ?_
  have hfirst' := encodeByte_mono (le_max_left fuel k) hfirst
  have hlater' := encodeBytes_mono (le_max_right fuel k) hlater
  simpa [encodeBytes, hfirst', hlater'] using hnone (max fuel k)

/-- One byte, issued and waited for, is encoded as the big-step rule says, and the block is ready for the next. -/
theorem reaches_encb {b : Byte} {rest : List HostAction} {fuel : Nat} {r' : GenReg} {bytes : List Byte}
    (hs : ReadyToDraw s) (hport : s.port = runCommand (.encb b) ++ rest)
    (h : encodeByte s.config fuel s.r b = some (r', bytes)) :
    ∃ n t, Reaches n s t ∧ ReadyToDraw t ∧ t.port = rest ∧ t.config = s.config ∧ t.r = r' := by
  have ⟨⟨_, hf⟩, hseed⟩ := hs
  obtain ⟨k, m, f, hworks⟩ := works_encb (s := { s with port := .awaitIdle :: rest }) (.inr ⟨_, rfl⟩) h
  obtain ⟨n, hn⟩ := reaches_runCommand rfl hport (exec_encb (s := { s with port := .awaitIdle :: rest }) hs b)
    hworks rfl rfl
  exact ⟨n, _, hn, ⟨⟨rfl, hf⟩, hseed⟩, rfl, rfl, rfl⟩

/-- A plaintext that no fuel encodes has a byte at which the run hangs. -/
theorem reaches_neverReturns {plain : List Byte} (hs : ReadyToDraw s) (hport : s.port = encodePort plain)
    (hnone : ∀ fuel, encodeBytes s.config fuel s.r plain = none) : ∃ n u, Reaches n s u ∧ NeverReturns u := by
  induction plain generalizing s with
  | nil => cases hnone 0
  | cons b plain ih =>
    have hport : s.port = runCommand (.encb b) ++ encodePort plain := hport
    by_cases hhang : ∀ fuel, encodeByte s.config fuel s.r b = none
    · have hissue : Reaches 1 s _ := reaches_issueOf (i := .encb b) rfl (hport.trans (List.append_assoc _ _ _))
        (exec_encb (s := { s with port := .awaitIdle :: encodePort plain }) hs b)
      exact ⟨1, _, hissue, neverReturns_encb (.inr ⟨_, rfl⟩) hhang⟩
    · obtain ⟨fuel, hne⟩ := not_forall.mp hhang
      obtain ⟨⟨r1, first⟩, hfirst⟩ := Option.ne_none_iff_exists'.mp hne
      obtain ⟨n1, t1, hn1, hready, hport1, hconfig, rfl⟩ := reaches_encb hs hport hfirst
      have hlater := encodeBytes_tail_eq_none hfirst hnone
      rw [← hconfig] at hlater
      obtain ⟨n2, u, hn2, hu⟩ := ih hready hport1 hlater
      exact ⟨n1 + n2, u, hn1.trans hn2, hu⟩

/-- An encryption run is over only if the big-step rule encodes the plaintext. -/
theorem encodeBytes_ends_of_over {c : Config} {key : Arg} {plain : List Byte}
    (h : Reaches n { State.resetWith c with port := runEncrypt key plain } t) (ht : Over t) :
    ∃ fuel r' cipher, encodeBytes c fuel (seedOfKey key) plain = some (r', cipher) := by
  by_contra hends
  have hnone (fuel : Nat) : encodeBytes c fuel (seedOfKey key) plain = none :=
    Option.eq_none_iff_forall_ne_some.mpr fun e he => hends ⟨fuel, e.1, e.2, he⟩
  obtain ⟨k, u, hk, hu⟩ := reaches_neverReturns (s := encryptStart c key plain) ⟨⟨rfl, rfl⟩, rfl⟩ rfl hnone
  exact hu.not_over ((step_encryptStart c key plain).trans hk) h ht

/-- Settles O59: the run that is over is the one of the big-step rule, whose decryption gives the plaintext back. -/
theorem runsRoundTrip : Obligations.RunsRoundTrip := by
  intro c key plain n t hn hport
  have ht : Over t := over_of_runEncrypt hn hport
  obtain ⟨fuel, r', cipher, henc⟩ := encodeBytes_ends_of_over hn ht
  rw [seedOfKey_eq_extractLsb'] at henc
  obtain ⟨k, v, hk, hvport, hend, rfl, rfl⟩ := encryptionRunMeetsBigStep c key fuel r' plain cipher henc
  obtain rfl : t = v := ht.unique ⟨hend.1, hvport⟩ hn hk
  obtain ⟨nb, hdec⟩ := decryptionUndoesEncryption c fuel _ _ 0#4 plain _ henc
  obtain ⟨m, u, hm, huport, hidle, hout, hr, hhl, hfault⟩ := decryptionRunMeetsBigStep c key 0#4 t.out
  rw [hdec] at hout hr hhl hfault
  exact ⟨hend, m, u, hm, huport, ⟨⟨hidle, hfault⟩, hhl⟩, hout, hr⟩

end Sys2Proof.Machine
end

section
/-! The exceptions (60_exceptions.md): the gates a command meets in their order (R114, R115, R117, R118), each one lemma
over the code of the command; what takes a fault (R118); what an idle block does with the host's action (R117, R123). -/

namespace Sys2Proof.Machine

variable {s t : State}

/-! ### The gates by the command's code -/

/-- A reserved code is turned away past the gate of every command, seeded or not (60_exceptions.md R115). -/
theorem exec_reserved {i : Instr} {op : OpCode} (hs : Ready s) (hop : i.opCode = some op) (hreserved : 9 ≤ op.toNat) :
    exec i s = .next (raiseFault (.illegalCommand op) s) := by
  obtain ⟨hp, hf⟩ := hs
  cases i <;> cases hop
  case reserved9 | reservedA | reservedB | reservedC | reservedD | reservedE | reservedF =>
    exact onCommand_ready hp hf
  all_goals exact absurd hreserved (by decide)

/-- The codes of the commands that draw are 2 to 7; each meets the gate of a seed (60_exceptions.md R114). -/
theorem exec_draw_unseeded {i : Instr} {op : OpCode} (hs : Ready s) (hseed : s.seeded = false)
    (hop : i.opCode = some op) (hdraw : 2 ≤ op.toNat ∧ op.toNat ≤ 7) :
    exec i s = .next (raiseFault (.notSeeded op) s) := by
  cases i <;> cases hop
  case step | nibble | mask | encn | encb | decb => exact onDraw_unseeded hs hseed
  all_goals exact absurd hdraw (by decide)

/-- The fault registers are as before (10_state.md R17). -/
def KeepsFaultRegisters (s t : State) : Prop := t.faulted = s.faulted ∧ t.cause = s.cause ∧ t.finfo = s.finfo

/-- Past the gates no command raises a fault when it is issued (60_exceptions.md R118). -/
theorem exec_accepted_keepsFaultRegisters {i : Instr} {op : OpCode} (hs : Ready s) (hop : i.opCode = some op)
    (hlegal : op.toNat ≤ 8) (hseed : s.seeded = true ∨ op.toNat ≤ 1 ∨ op.toNat = 8) :
    ∃ t, exec i s = .next t ∧ KeepsFaultRegisters s t := by
  have hdraw (h : ¬ (op.toNat ≤ 1 ∨ op.toNat = 8)) : ReadyToDraw s := ⟨hs, hseed.resolve_right h⟩
  cases i <;> cases hop
  case nop => exact ⟨_, exec_nop hs.1, rfl, rfl, rfl⟩
  case init key => exact ⟨_, exec_init hs key, rfl, rfl, rfl⟩
  case drst => exact ⟨_, exec_drst hs, rfl, rfl, rfl⟩
  case step => exact ⟨_, exec_step (hdraw (by decide)), rfl, rfl, rfl⟩
  case nibble => exact ⟨_, exec_nibble (hdraw (by decide)), rfl, rfl, rfl⟩
  case mask => exact ⟨_, exec_mask (hdraw (by decide)), rfl, rfl, rfl⟩
  case encn p => exact ⟨_, exec_encn (hdraw (by decide)) p, rfl, rfl, rfl⟩
  case encb b => exact ⟨_, exec_encb (hdraw (by decide)) b, rfl, rfl, rfl⟩
  case decb c => exact ⟨_, exec_decb (hdraw (by decide)) c, rfl, rfl, rfl⟩
  all_goals exact absurd hlegal (by decide)

/-- Settles O27: the rows listed have codes of 9 and more. -/
theorem reservedCommandsAreIllegal : Obligations.ReservedCommandsAreIllegal := by
  intro s i op hs hi
  have hrow : i.opCode = some op ∧ 9 ≤ op.toNat := by
    simp only [List.mem_cons, Prod.mk.injEq, List.not_mem_nil, or_false] at hi
    obtain ⟨rfl, rfl⟩ | ⟨rfl, rfl⟩ | ⟨rfl, rfl⟩ | ⟨rfl, rfl⟩ | ⟨rfl, rfl⟩ | ⟨rfl, rfl⟩ | ⟨rfl, rfl⟩ := hi <;>
      exact ⟨rfl, by decide⟩
  obtain ⟨hop, hreserved⟩ := hrow
  exact exec_reserved hs hop hreserved

/-- Settles O28: the rows listed have codes of 2 to 7, and `info` is the code on 8 bits. -/
theorem unseededDrawRaisesNotSeeded : Obligations.UnseededDrawRaisesNotSeeded := by
  intro s hs hseed p b c i info hi
  have hrow : ∃ op : OpCode, i.opCode = some op ∧ (2 ≤ op.toNat ∧ op.toNat ≤ 7) ∧ info = op.setWidth 8 := by
    simp only [List.mem_cons, Prod.mk.injEq, List.not_mem_nil, or_false] at hi
    obtain ⟨rfl, rfl⟩ | ⟨rfl, rfl⟩ | ⟨rfl, rfl⟩ | ⟨rfl, rfl⟩ | ⟨rfl, rfl⟩ | ⟨rfl, rfl⟩ := hi <;>
      exact ⟨_, rfl, by decide, rfl⟩
  obtain ⟨op, hop, hdraw, rfl⟩ := hrow
  exact exec_draw_unseeded hs hseed hop hdraw

/-! ### Taking a fault -/

@[simp] theorem afterMatch_faulted : (afterMatch s).faulted = s.faulted := by
  unfold afterMatch; split <;> rfl

@[simp] theorem afterReject_faulted : (afterReject s).faulted = s.faulted := by
  unfold afterReject; split <;> rfl

@[simp] theorem startMatch_faulted (f : BitVec 5) (d : DiscCode) : (startMatch f d s).faulted = s.faulted := by
  unfold startMatch; split <;> rfl

@[simp] theorem frameNibble_faulted (p : Nibble) : (frameNibble p s).faulted = s.faulted := by
  unfold frameNibble; split <;> rfl

/-- A busy block takes a fault for a malformed codeword only, and has drawn the mask by then (60_exceptions.md R113,
R118). -/
theorem Move.takesFault (h : Move s t) (hp : s.ph ≠ .idle) (hs : s.faulted = false) (ht : t.faulted = true) :
    s.ph = .dMask ∧ ∃ f d, t = malformed f d (unmaskCodeword s).1 := by
  have hkeep (hk : t.faulted = s.faulted) : False := by simp [hk, hs] at ht
  cases h with
  | stays hidle | answers hidle => exact absurd hidle hp
  | inits _ hr | clearsFraming hr | drawsBit hr | drawsNibble hr | drawsMask hr | startsEncode _ _ _ hr
  | startsDecode _ hr | lacksSeed _ hr | isIllegal _ hr => exact absurd hr.1 hp
  | findsMalformed f d _ hmask => exact ⟨hmask, f, d, rfl⟩
  | resets => cases ht
  | shows | drawsFirstMask | escapes | findsEscape => exact (hkeep rfl).elim
  | matchesNibble | rejectsNibble | keepsNibble => exact (hkeep (by simp)).elim
  | findsMatch f d => exact (hkeep (startMatch_faulted f d)).elim
  | discardsEscaped | discardsRejected => exact (hkeep (by split <;> rfl)).elim

/-- Settles O30: the gates of a command in their order; a fault of a command in progress is a move of phase `D_MASK`. -/
theorem faultPriority : Obligations.FaultPriority := by
  refine ⟨fun s i op hp hop => ⟨fun hf => ?ignored, fun hf hreserved => ?illegal, fun hf hlow hhigh hseed => ?unseeded,
    fun hf hlegal hseed => ?accepted⟩, fun s t hp hstep hs ht => ?inProgress⟩
  case ignored => exact exec_command_faulted (Option.isSome_of_eq_some hop) hp hf
  case illegal => exact ⟨_, exec_reserved ⟨hp, hf⟩ hop hreserved, rfl, rfl⟩
  case unseeded => exact ⟨_, exec_draw_unseeded ⟨hp, hf⟩ hseed hop ⟨hlow, hhigh⟩, rfl, rfl⟩
  case accepted =>
    obtain ⟨t, ht, hfaulted, hcause, hfinfo⟩ := exec_accepted_keepsFaultRegisters ⟨hp, hf⟩ hop hlegal hseed
    exact ⟨t, ht, hfaulted.trans hf, hcause, hfinfo⟩
  case inProgress =>
    obtain ⟨p, hm⟩ := step_next hstep
    obtain ⟨hmask, f, d, rfl⟩ := hm.takesFault hp hs ht
    exact ⟨hmask, rfl, rfl⟩

/-! ### An idle block and the host -/

/-- A wait of the host ends at once on an idle block (log 4). -/
theorem hostAct_wait_idle (hp : s.ph = .idle) : hostAct .wait s = .next s := takeTransition_idle hp

theorem hostAct_awaitIdle_idle (hp : s.ph = .idle) : hostAct .awaitIdle s = .next s := if_pos hp

/-- On a faulted block an action of the host, but reset, adds to the host's record at most (60_exceptions.md R117). -/
theorem hostAct_faulted {a : HostAction} (hp : s.ph = .idle) (hf : s.faulted = true) (ha : a ≠ .reset) :
    ∃ seen, hostAct a s = .next { s with seen := seen } := by
  cases a with
  | wait => exact ⟨s.seen, hostAct_wait_idle hp⟩
  | awaitIdle => exact ⟨s.seen, hostAct_awaitIdle_idle hp⟩
  | reset => exact absurd rfl ha
  | issue w => exact ⟨_, exec_command_faulted (decodeCommand_isCommand w) hp hf⟩
  | readStatus | readFinfo | takeOut => exact ⟨_, rfl⟩

/-- A step of a faulted block, but reset, changes the port and the host's record at most (60_exceptions.md R117). -/
theorem step_faulted (hp : s.ph = .idle) (hf : s.faulted = true) (hport : s.port.head? ≠ some .reset) :
    ∃ port seen, step s = .next { s with port := port, seen := seen } := by
  cases h : s.port with
  | nil => exact ⟨s.port, s.seen, (step_of_port_nil h).trans (takeTransition_idle hp)⟩
  | cons a rest =>
    have ha : a ≠ .reset := by rintro rfl; exact hport (by rw [h]; rfl)
    obtain ⟨seen, hact⟩ := hostAct_faulted (s := { s with port := rest }) hp hf ha
    exact ⟨rest, seen, (step_of_port_cons h).trans hact⟩

/-- Settles O29: the gate of every command, the steps of a faulted block, and reset, the way out. -/
theorem faultedBlockIgnoresEverything : Obligations.FaultedBlockIgnoresEverything := by
  refine ⟨fun s i hp hf hi => exec_command_faulted hi hp hf, fun s t hp hf hport hstep => ?_, fun s rest hport =>
    ⟨_, step_of_port_cons hport, rfl, rfl⟩⟩
  obtain ⟨port, seen, h⟩ := step_faulted hp hf hport
  obtain rfl : t = { s with port := port, seen := seen } := Host.Outcome.next.inj (hstep.symm.trans h)
  rfl

/-- Settles O44: the transition of `IDLE`, and the two waits of the host. -/
theorem idleBlockKeepsItsState : Obligations.IdleBlockKeepsItsState := by
  intro s hp
  refine ⟨fun hport => (step_of_port_nil hport).trans (takeTransition_idle hp), fun rest hport => ?_⟩
  obtain hport | hport := hport
  · exact (step_of_port_cons hport).trans (hostAct_wait_idle (s := { s with port := rest }) hp)
  · exact (step_of_port_cons hport).trans (hostAct_awaitIdle_idle (s := { s with port := rest }) hp)

end Sys2Proof.Machine
end

section
/-! Reset and hazards (70_reset_and_hazards.md): the reset input in any phase, a command issued to a busy block, and the
zero seed. The step fixes the zero register under every tap pair, so that all its draws are 0 and a search from it stays
at `R = 0` and `MASK = 0`: `searchAt 0#24 0x00#8` names every state of such a search. -/

namespace Sys2Proof.Machine

variable {s : State}

/-! ### Reset and the busy gate -/

theorem statusByte_resetInput (s : State) : statusByte (resetInput s) = 0x00#8 := by
  simp [statusByte, busy]

/-- Settles O41: reset is taken off the port and acts without looking at the phase. -/
theorem resetInputInAnyPhase : Obligations.ResetInputInAnyPhase := fun _ _ hport =>
  ⟨_, step_of_port_cons hport, rfl, rfl, rfl, rfl, rfl, rfl, rfl, rfl, rfl, rfl, rfl, statusByte_resetInput _⟩

/-- Settles O31: the gate of every command looks at the phase first. -/
theorem busyBlockRefusesCommands : Obligations.BusyBlockRefusesCommands := fun _ _ hb hi => exec_command_busy hi hb

/-! ### Draws from the zero register -/

theorem genNibble_zero (c : Config) : genNibble c 0#24 = (0#24, 0#4) :=
  Prod.ext (by simp [genNibble_fst, genNext_zero]) (by simp [genNibble_snd, genNext_zero])

theorem genMask_zero (c : Config) : genMask c 0#24 = (0#24, 0x00#8) := by
  simp [genMask_eq, genNibble_zero]

/-! ### The search from the zero register -/

/-- Any encode from the zero register begins its search there, under the mask 0. -/
theorem works_eMask_zero (hw : Waits s.port) (hp : s.ph = .eMask) (hr : s.r = 0#24) :
    Works 1 s (searchAt 0#24 0x00#8 0#6 [] s) := by
  have hbegin : beginSearch s = searchAt 0#24 0x00#8 0#6 [] s := by
    simp [beginSearch, drawMask, searchAt, hr, genMask_zero, setR]
  exact .single hw (by simp [hp]) ((takeTransition_eMask hp).trans (congrArg _ hbegin))

/-- The nibble searched for is compared with 0 at every draw, so one that does not match is rejected up to 31 times
with no change but in `FAILS`. -/
theorem works_rejections_zero (hw : Waits s.port) (hv : tabValid s.pn = false) (bytes : List Byte) {j : Nat}
    (hj : j ≤ 31) :
    Works j (searchAt 0#24 0x00#8 0#6 bytes s) (searchAt 0#24 0x00#8 (BitVec.ofNat 6 j) bytes s) := by
  induction j with
  | zero => exact .refl _
  | succ j ih =>
    have hf : BitVec.ofNat 6 j ≠ 31#6 := by bv_omega
    have hnext : phaseESrch (searchAt 0#24 0x00#8 (BitVec.ofNat 6 j) bytes s) =
        .next (searchAt 0#24 0x00#8 (BitVec.ofNat 6 (j + 1)) bytes s) := by
      rw [phaseESrch_of_reject (by simpa [searchAt, genNibble_zero] using hv), afterReject_of_not_full hf]
      simp [searchAt, setR, genNibble_zero, BitVec.ofNat_add]
    exact (ih (by omega)).trans (works_eSrch hw rfl hnext)

/-- The 32nd rejection leads to the escape, whose byte under the mask 0 is the sentinel itself. -/
theorem works_escape_zero (hw : Waits s.port) (hv : tabValid s.pn = false) (bytes : List Byte) :
    Works 2 (searchAt 0#24 0x00#8 31#6 bytes s) (searchAt 0#24 0x00#8 0#6 (bytes ++ [0xFF#8]) s) := by
  have hafter : searchAfterEscape (searchAt 0#24 0x00#8 31#6 bytes s) =
      searchAt 0#24 0x00#8 0#6 (bytes ++ [0xFF#8]) s := by
    simp [searchAfterEscape, searchAt, beginSearch, drawMask, setR, pushByte, genNibble_zero, genMask_zero, applyMask,
      escCodeword]
  rw [← hafter]
  exact works_escape hw rfl (by simpa [searchAt, genNibble_zero] using hv) rfl

/-- Each attempt takes 33 transitions, 32 rejections and the escape, and the next one begins as it began. -/
theorem works_attempts_zero (hw : Waits s.port) (hv : tabValid s.pn = false) (n : Nat) :
    Works (33 * n) (searchAt 0#24 0x00#8 0#6 [] s) (searchAt 0#24 0x00#8 0#6 (List.replicate n 0xFF#8) s) := by
  induction n with
  | zero => exact .refl _
  | succ n ih =>
    rw [List.replicate_succ']
    exact ih.trans ((works_rejections_zero hw hv _ (j := 31) le_rfl).trans (works_escape_zero hw hv _))

/-- A nibble that matches 0 ends the search at the first draw: no failure and no mask, so that its code alone is
pushed. -/
theorem works_match_zero {d : DiscCode} (hw : Waits s.port) (hd : tabDisc s.pn = some d) :
    Works 1 (searchAt 0#24 0x00#8 0#6 [] s) (afterMatch (searchAt 0#24 0x00#8 0#6 [d.setWidth 8] s)) := by
  refine works_eSrch hw rfl ((phaseESrch_of_match (d := d) (by simpa [searchAt, genNibble_zero] using hd)).trans ?_)
  simp [searchAt, setR, pushByte, genNibble_zero, applyMask, makeCodeword]

/-- Settles O60: after the transition that draws the mask come attempts without end, or the match. -/
theorem zeroSeedHangs : Obligations.ZeroSeedHangs := by
  intro s p hs hport hr
  have hw : Waits s.port := .inl hport
  have hmask : Works 1 (startEncode p s.ln false s) (searchAt 0#24 0x00#8 0#6 [] (startEncode p s.ln false s)) :=
    works_eMask_zero hw rfl hr
  refine ⟨_, exec_encn hs p, fun hv => ?hangs, fun d hd => ?matched⟩
  case hangs =>
    have hworks (n : Nat) := hmask.trans (works_attempts_zero (s := startEncode p s.ln false s) hw hv n)
    exact ⟨fun n => ⟨_, (hworks n).reaches, rfl, rfl, rfl⟩, fun k => (hworks k).busy_before (by omega)⟩
  case matched =>
    have hworks := hmask.trans (works_match_zero (s := startEncode p s.ln false s) hw hd)
    rw [afterMatch_of_not_lp rfl] at hworks
    exact ⟨_, hworks.reaches, rfl, rfl, rfl⟩

end Sys2Proof.Machine
end

section
/-! The invariant at reset, and the two stops the model chose: a codeword outside `D_MASK` (log 6), and the read of an
absent `INV` entry in `D_KEEP` (log 8). -/

namespace Sys2Proof.Machine

variable {s : State}

/-- The reset input finds nothing to clear in a block that is as right after reset. -/
theorem resetInput_resetWith (c : Config) : resetInput (State.resetWith c) = State.resetWith c := rfl

theorem machineInv_resetWith (c : Config) : MachineInv (State.resetWith c) :=
  resetInput_resetWith c ▸ machineInv_resetInput

/-- Settles O2: the reset state is what the reset input makes, for every tap pair; `State.reset` has the hardware's. -/
theorem invariantHoldsAtReset : Obligations.InvariantHoldsAtReset :=
  ⟨machineInv_resetWith .hardware, machineInv_resetWith⟩

/-- Every codeword is a body behind the gate of codewords. -/
theorem exec_codeword_eq_onCodeword {i : Instr} (hi : i.isCommand = false) :
    ∃ body : State → Result, ∀ s, exec i s = onCodeword body s := by
  cases i
  case cwEsc | cwMatch0 | cwMatch1 | cwMatch2 | cwMatch3 | cwMatch4 | cwBad5 | cwBad6 | cwBad7 =>
    exact ⟨_, fun _ => rfl⟩
  all_goals cases hi

/-- Outside phase `D_MASK` the gate refuses a codeword. -/
theorem onCodeword_not_dMask {body : State → Result} (hp : s.ph ≠ .dMask) :
    onCodeword body s = .refused .codewordOutsideDMask := if_neg hp

/-- Phase `D_KEEP` stops where the discrepancy has no `INV` entry (42_match_tables.md R82). -/
theorem takeTransition_dKeep_of_absent (hp : s.ph = .dKeep) (habsent : tabInv (discrepancyField s.cw) = none) :
    takeTransition s = .fault .invEntryAbsent := by
  simp only [takeTransition, hp, phaseDKeep, habsent]

/-- Settles O35: the gate of the codewords, the end of the table `INV`, and `VALID` before each read of `DISC`. -/
theorem stopsTheModelChose : Obligations.StopsTheModelChose := by
  refine ⟨fun s i hp hi => ?outsideDMask, fun s hport hp hcode => ?absentEntry, fun s hport hp => ?search⟩
  case outsideDMask =>
    obtain ⟨body, hexec⟩ := exec_codeword_eq_onCodeword hi
    exact (hexec s).trans (onCodeword_not_dMask hp)
  case absentEntry =>
    have habsent : tabInv (discrepancyField s.cw) = none := tabInv_eq_none (Nat.not_le.mpr hcode)
    exact (step_of_port_nil hport).trans (takeTransition_dKeep_of_absent hp habsent)
  case search =>
    rw [step_of_port_nil hport, takeTransition_eSrch hp]
    exact phaseESrch_isNext s

end Sys2Proof.Machine
end
